-- ==== Sys2Proof/Word.lean ====
section
/-!
DEFINITION. The words of the block: a byte (R10), a 5-bit device register address (R51), a 24-bit sample
(R10), and an identifier (R131: an option operand is "any identifier", the table decides).
-/

namespace Sys2Proof

/-- A byte: a register value, an opcode, a byte of a frame (R10). -/
abbrev Byte := BitVec 8

/-- An address of the device register space, 0x00 to 0x1F (R50, R51). -/
abbrev Addr := BitVec 5

/-- The unsigned 24-bit pattern of a conversion sample (R10, R109). -/
abbrev Sample := BitVec 24

/-- A register, option or mode name as the host writes it; it may be in no table (R131). -/
abbrev Ident := String

end Sys2Proof
end

