-- ==== Sys2Proof/Config.lean ====
section
/-!
DEFINITION. What is configuration and not state (R19): the parameters of R8 and R9, as plain data, and the
free values the environment gives when no answer of it is listed (R14). The default values of the parameters
are in Machine/Params.lean.
-/

namespace Sys2Proof

/-- The device register names (R21). OFCAL0 to FSCAL2 are the spec's names for the source's "calibration
registers". -/
inductive RegId where
  | id | status | mode0 | mode1 | mode2 | mode3 | ref
  | ofcal0 | ofcal1 | ofcal2 | fscal0 | fscal1 | fscal2
  | imux | imag | pga | inpmux
  deriving DecidableEq, Repr

/-- A field table of R130: rows of an option name and its code in a field of `w` bits. -/
abbrev Table (w : Nat) := List (Ident × BitVec w)

/-- The parameter `RegAddr` (P9): the address of each register. An address is at most 0x1F by its type (R51). -/
structure RegMap where
  id : Addr
  status : Addr
  mode0 : Addr
  mode1 : Addr
  mode2 : Addr
  mode3 : Addr
  ref : Addr
  ofcal0 : Addr
  ofcal1 : Addr
  ofcal2 : Addr
  fscal0 : Addr
  fscal1 : Addr
  fscal2 : Addr
  imux : Addr
  imag : Addr
  pga : Addr
  inpmux : Addr
  deriving DecidableEq, Repr

/-- The parameters a model takes as configuration fields (R8: P1 to P4 and P6 to P8; R9: P9 to P15). P5 `ARB` is
the constant `arb` of Machine/Params.lean: "not a free choice" (R89, U10). -/
structure Config where
  /-- P1 `RETRY_BUDGET`: the largest number of polls of one wait. -/
  retryBudget : Nat
  /-- P2 `N_DUMMY`: zero bytes after the two command bytes of an RREG frame, at least 1. -/
  nDummy : Nat
  /-- P3 `T_RESET_LOW` in milliseconds, at least 100; timing only. -/
  tResetLowMs : Nat
  /-- P4 `T_CAL_SETTLE` in milliseconds, none where no value is given (the source gives none, D25); timing only. -/
  tCalSettleMs : Option Nat
  /-- P6 `OP_RREG`, the base of RREG byte 0. -/
  opRreg : Byte
  /-- P6 `OP_WREG`, the base of WREG byte 0. -/
  opWreg : Byte
  /-- P6 `OP_RDATA`. -/
  opRdata : Byte
  /-- P6 `OP_START`. -/
  opStart : Byte
  /-- P6 `OP_STOP`. -/
  opStop : Byte
  /-- P7 `OP_SFOCAL`. -/
  opSfocal : Byte
  /-- P7 `OP_SYOCAL`. -/
  opSyocal : Byte
  /-- P8 `SAT_POS`. -/
  satPos : Sample
  /-- P8 `SAT_NEG`. -/
  satNeg : Sample
  /-- P9 `RegAddr`. -/
  regMap : RegMap
  /-- P10 `OP_NOP`. -/
  opNop : Byte
  /-- P10 `OP_RESET`. -/
  opReset : Byte
  /-- P10 `OP_GANCAL`. -/
  opGancal : Byte
  /-- P10 `OP_LOCK`. -/
  opLock : Byte
  /-- P10 `OP_UNLOCK`. -/
  opUnlock : Byte
  /-- P11 `OFF_CRC_ONLY`: sample offset with STATENB 0, CRCENB 1. -/
  offCrcOnly : Nat
  /-- P11 `OFF_BOTH`: sample offset with STATENB 1, CRCENB 1. -/
  offBoth : Nat
  /-- P12 `MODE3_POWERON`. -/
  mode3PowerOn : Byte
  /-- P13 `SAT_CHECK_WITHOUT_STATUS`. -/
  satCheckWithoutStatus : Bool
  /-- P14 `REF_W`: width in bits of the `reference_mV` operand. -/
  refW : Nat
  /-- P15 `PinTable`. -/
  pinTable : Table 4
  /-- P15 `RateTable`. -/
  rateTable : Table 5
  /-- P15 `FilterTable`. -/
  filterTable : Table 3
  /-- P15 `ChopTable`. -/
  chopTable : Table 2
  /-- P15 `ConvTable`. -/
  convTable : Table 1
  /-- P15 `DelayTable`. -/
  delayTable : Table 4
  /-- P15 `RefPTable`. -/
  refPTable : Table 2
  /-- P15 `RefNTable`. -/
  refNTable : Table 2
  deriving DecidableEq, Repr

/-- FREE VALUE: does the environment's answer number `tick` to `Xchg` say that the exchange failed (R14, R257)?
Read only when `State.replies` lists no answer. -/
opaque Config.freeFails : Nat → Bool

/-- FREE VALUE: byte `i` of the environment's answer number `tick` to `Xchg` (R14, U2). Read only where
`State.replies` lists no such byte. -/
opaque Config.freeByte : Nat → Nat → Byte

/-- FREE VALUE: the level of `DRDY_n` at the environment's answer number `tick` (R14, U2). Read only when
`State.samples` lists no level. -/
opaque Config.freeLevel : Nat → Bool

/-- FREE VALUE: byte `i` of an array that has no byte `i`. No legal configuration reads it: every reader checks
the length first or reads inside the frame it sent. -/
opaque Config.absentByte : Nat → Byte

end Sys2Proof
end

