-- ==== Sys2Proof/Machine/Params.lean ====
section
/-!
DEFINITION. The constant P5 (R8, R89), the look-ups in a field table and in `RegAddr`, the law of a legal
configuration (R51, R130, U14, U15), and the default configuration (R8, R9, R78 and the tables of
41_field_codecs.md).
-/

namespace Sys2Proof

/-! ### The arbitrary byte -/

/-- P5 `ARB`, the constant second byte (R89). -/
def arb : Byte := 0x10

/-! ### Field tables -/

/-- `T.enc(n)`: the code of the name `n`, none outside the table (R130). -/
def Table.enc {w : Nat} (t : Table w) (n : Ident) : Option (BitVec w) :=
  (t.find? fun row => row.1 == n).map (·.2)

/-- `T.dec(c)`: the name whose code is `c`, none outside the image (R130). -/
def Table.dec {w : Nat} (t : Table w) (c : BitVec w) : Option Ident :=
  (t.find? fun row => row.2 == c).map (·.1)

/-- R130: names and codes of a table are each without repeats, so that `enc` is a function and injective. -/
def Table.legal {w : Nat} (t : Table w) : Bool :=
  decide (t.map (·.1)).Nodup && decide (t.map (·.2)).Nodup

/-! ### Register names and addresses -/

/-- The seventeen members of `RegId` (R21). -/
def RegId.all : List RegId :=
  [.id, .status, .mode0, .mode1, .mode2, .mode3, .ref, .ofcal0, .ofcal1, .ofcal2, .fscal0, .fscal1, .fscal2,
   .imux, .imag, .pga, .inpmux]

/-- The spelling of a register name (R21). -/
def RegId.name : RegId → Ident
  | .id => "ID"
  | .status => "STATUS"
  | .mode0 => "MODE0"
  | .mode1 => "MODE1"
  | .mode2 => "MODE2"
  | .mode3 => "MODE3"
  | .ref => "REF"
  | .ofcal0 => "OFCAL0"
  | .ofcal1 => "OFCAL1"
  | .ofcal2 => "OFCAL2"
  | .fscal0 => "FSCAL0"
  | .fscal1 => "FSCAL1"
  | .fscal2 => "FSCAL2"
  | .imux => "IMUX"
  | .imag => "IMAG"
  | .pga => "PGA"
  | .inpmux => "INPMUX"

/-- The register an operand names, none when it is no member of `RegId` (R21, R252). -/
def RegId.ofName (n : Ident) : Option RegId :=
  RegId.all.find? fun r => r.name == n

/-- `RegAddr(r)` (P9). -/
def RegMap.addr (m : RegMap) : RegId → Addr
  | .id => m.id
  | .status => m.status
  | .mode0 => m.mode0
  | .mode1 => m.mode1
  | .mode2 => m.mode2
  | .mode3 => m.mode3
  | .ref => m.ref
  | .ofcal0 => m.ofcal0
  | .ofcal1 => m.ofcal1
  | .ofcal2 => m.ofcal2
  | .fscal0 => m.fscal0
  | .fscal1 => m.fscal1
  | .fscal2 => m.fscal2
  | .imux => m.imux
  | .imag => m.imag
  | .pga => m.pga
  | .inpmux => m.inpmux

/-- The register at an address, none where `RegAddr` gives the address to no name (R51, R111). -/
def RegMap.regAt (m : RegMap) (a : Addr) : Option RegId :=
  RegId.all.find? fun r => m.addr r == a

/-! ### Legal configurations -/

/-- R8 P6 to P8: the parameters whose value the source fixes hold that value (log entry 20). -/
def Config.fixedLegal (c : Config) : Bool :=
  decide (c.opRreg = 0x20) && decide (c.opWreg = 0x40) && decide (c.opRdata = 0x12) && decide (c.opStart = 0x08) &&
    decide (c.opStop = 0x0A) && decide (c.opSfocal = 0x19) && decide (c.opSyocal = 0x16) &&
    decide (c.satPos = 0x7FFFFF) && decide (c.satNeg = 0x800000)

/-- R9 P11, R82 and D8: an offset is at most 6, so that the sample lies in the 9-byte reply; neither the sample nor
the status byte is byte 0 or the echo, which no reader interprets; the four offsets differ (log entry 20). -/
def Config.offsetsLegal (c : Config) : Bool :=
  decide (c.offCrcOnly + 3 ≤ 9) && decide (c.offBoth + 3 ≤ 9) && decide (2 ≤ c.offCrcOnly) && decide (3 ≤ c.offBoth) &&
    decide ([2, 3, c.offCrcOnly, c.offBoth] : List Nat).Nodup

/-- R130 for the eight tables, and the two rows of `PinTable` the source fixes (R132, R9 P15, D21). That a legal
`PinTable` need not hold AINCOM is the model's choice (log entry 30). -/
def Config.tablesLegal (c : Config) : Bool :=
  c.pinTable.legal && c.rateTable.legal && c.filterTable.legal && c.chopTable.legal && c.convTable.legal &&
    c.delayTable.legal && c.refPTable.legal && c.refNTable.legal &&
    decide (Table.enc c.pinTable "AIN3" = some 0b0100#4) && decide (Table.enc c.pinTable "AIN4" = some 0b0101#4)

/-- A legal configuration (U14, U15): `N_DUMMY ≥ 1`, `T_RESET_LOW` at least 100 ms, `RegAddr` injective, the fixed
parameters at their values, legal offsets and tables. A model refuses any other. -/
def Config.legal (c : Config) : Bool :=
  decide (1 ≤ c.nDummy) && decide (100 ≤ c.tResetLowMs) && decide (RegId.all.map c.regMap.addr).Nodup &&
    c.fixedLegal && c.offsetsLegal && c.tablesLegal

/-- The bytes of NOP, RESET, GANCAL, LOCK and UNLOCK lie in no other command's class of R81 ("The classes are
disjoint with the default parameters"). It is no condition on a legal configuration. -/
def Config.opcodesDisjoint (c : Config) : Bool :=
  decide ([c.opStart, c.opStop, c.opRdata, c.opSyocal, c.opSfocal, c.opReset, c.opNop, c.opGancal, c.opLock,
      c.opUnlock] : List Byte).Nodup &&
    ([c.opReset, c.opNop, c.opGancal, c.opLock, c.opUnlock] : List Byte).all fun b =>
      b.extractLsb' 5 3 != 0b001#3 && b.extractLsb' 5 3 != 0b010#3

/-! ### The default configuration -/

/-- The default `RegAddr` of R78 (general knowledge, G1). -/
def RegMap.default : RegMap where
  id := 0x00
  status := 0x01
  mode0 := 0x02
  mode1 := 0x03
  mode2 := 0x04
  mode3 := 0x05
  ref := 0x06
  ofcal0 := 0x07
  ofcal1 := 0x08
  ofcal2 := 0x09
  fscal0 := 0x0A
  fscal1 := 0x0B
  fscal2 := 0x0C
  imux := 0x0D
  imag := 0x0E
  pga := 0x10
  inpmux := 0x11

/-- `PinTable` of R132 (AIN3 and AIN4 the source's, the rest G3). -/
def defaultPinTable : Table 4 :=
  [("AINCOM", 0b0000), ("AIN0", 0b0001), ("AIN1", 0b0010), ("AIN2", 0b0011), ("AIN3", 0b0100), ("AIN4", 0b0101),
   ("AIN5", 0b0110), ("AIN6", 0b0111), ("AIN7", 0b1000), ("AIN8", 0b1001), ("AIN9", 0b1010),
   ("INTEMPSENSE", 0b1011), ("INTAV4", 0b1100), ("INTDV4", 0b1101), ("ALLOPEN", 0b1110), ("VCOM", 0b1111)]

/-- `RateTable` of R140 (G4). -/
def defaultRateTable : Table 5 :=
  [("2.5", 0), ("5", 1), ("10", 2), ("16.6", 3), ("20", 4), ("50", 5), ("60", 6), ("100", 7), ("400", 8),
   ("1200", 9), ("2400", 10), ("4800", 11), ("7200", 12), ("14400", 13), ("19200", 14), ("25600", 15),
   ("40000", 16)]

/-- `FilterTable` of R140 (G4). -/
def defaultFilterTable : Table 3 :=
  [("sinc1", 0), ("sinc2", 1), ("sinc3", 2), ("sinc4", 3), ("fir", 4)]

/-- `ChopTable` of R143 (G6). -/
def defaultChopTable : Table 2 :=
  [("normal", 0), ("chop", 1), ("ac2wire", 2), ("ac4wire", 3)]

/-- `ConvTable` of R143 (G6). -/
def defaultConvTable : Table 1 :=
  [("continuous", 0), ("pulse", 1)]

/-- `DelayTable` of R143 (G6). -/
def defaultDelayTable : Table 4 :=
  [("0us", 0), ("50us", 1), ("59us", 2), ("67us", 3), ("85us", 4), ("119us", 5), ("189us", 6), ("328us", 7),
   ("605us", 8), ("1.16ms", 9), ("2.27ms", 10), ("4.49ms", 11), ("8.93ms", 12), ("17.8ms", 13)]

/-- `RefPTable` of R146 (G7). -/
def defaultRefPTable : Table 2 :=
  [("INT_P", 0), ("AVDD", 1), ("AIN0", 2), ("AIN2", 3)]

/-- `RefNTable` of R146 (G7). -/
def defaultRefNTable : Table 2 :=
  [("INT_N", 0), ("AVSS", 1), ("AIN1", 2), ("AIN3", 3)]

/-- Every parameter at the value R8 gives or at the default of R9. -/
def Config.default : Config where
  retryBudget := 1000
  nDummy := 1
  tResetLowMs := 100
  tCalSettleMs := none
  opRreg := 0x20
  opWreg := 0x40
  opRdata := 0x12
  opStart := 0x08
  opStop := 0x0A
  opSfocal := 0x19
  opSyocal := 0x16
  satPos := 0x7FFFFF
  satNeg := 0x800000
  regMap := RegMap.default
  opNop := 0x00
  opReset := 0x06
  opGancal := 0x17
  opLock := 0xF2
  opUnlock := 0xF5
  offCrcOnly := 4
  offBoth := 5
  mode3PowerOn := 0x00
  satCheckWithoutStatus := false
  refW := 16
  pinTable := defaultPinTable
  rateTable := defaultRateTable
  filterTable := defaultFilterTable
  chopTable := defaultChopTable
  convTable := defaultConvTable
  delayTable := defaultDelayTable
  refPTable := defaultRefPTable
  refNTable := defaultRefNTable

end Sys2Proof
end

