-- ==== Sys2Proof/Syntax.lean ====
section
/-!
DEFINITION. The wire command set (R3): one constructor for each row of spec/opcode_table.json.
-/

namespace Sys2Proof

/-- A wire command, in the order of R3 and R79. `addr` is byte 0 bits 4:0 (R73, R74), `value` is byte 1 of a
WREG frame (R77). -/
inductive Instr where
  | nop
  | reset
  | start
  | stop
  | rdata
  | syocal
  | gancal
  | sfocal
  | rreg (addr : Addr)
  | wreg (addr : Addr) (value : Byte)
  | lock
  | unlock
  deriving DecidableEq, Repr

end Sys2Proof
end

