-- ==== Sys2Proof/WellFormed.lean ====
section
/-!
DEFINITION. The check of a wire command against a configuration. The widths of `addr` and `value` are in the
types; what is left to check is that a register address is given to some name: "Addresses in 0x00 to 0x1F that
RegAddr gives to no name are unreachable: no operation can produce them" (R51).
-/

namespace Sys2Proof

/-- A wire command some operation of the block can produce an operand for (R51). -/
def Instr.wellFormed (c : Config) : Instr → Bool
  | .nop => true
  | .reset => true
  | .start => true
  | .stop => true
  | .rdata => true
  | .syocal => true
  | .gancal => true
  | .sfocal => true
  | .rreg a => (c.regMap.regAt a).isSome
  | .wreg a _ => (c.regMap.regAt a).isSome
  | .lock => true
  | .unlock => true

end Sys2Proof
end

