-- ==== Sys2Proof/Decode.lean ====
section
/-!
DEFINITION. The frame formats (R70 to R75), the classifier of a frame by its byte 0 (R81), after it the encoder
(R79), and the recognition of a frame byte for byte (R89). A frame is a list of bytes, byte 0 first (R11).
-/

namespace Sys2Proof

/-! ### Frame formats -/

/-- Format C2: opcode, ARB (R71). -/
def frameC2 (op : Byte) : List Byte := [op, arb]

/-- Format C3: opcode, ARB, one zero byte (R72). -/
def frameC3 (op : Byte) : List Byte := [op, arb, 0x00]

/-- Format RR, the RregFrame of R100: 0x20 + a, ARB, `N_DUMMY` zero bytes (R73). -/
def frameRR (c : Config) (a : Addr) : List Byte :=
  [c.opRreg + a.setWidth 8, arb] ++ List.replicate c.nDummy 0x00

/-- Format WR, the WregFrame of R101: 0x40 + a, value, three zero bytes (R74). -/
def frameWR (c : Config) (a : Addr) (v : Byte) : List Byte :=
  [c.opWreg + a.setWidth 8, v, 0x00, 0x00, 0x00]

/-- Format RD: 0x12 and eight zero bytes (R75). -/
def frameRD (c : Config) : List Byte := c.opRdata :: List.replicate 8 0x00

/-- The length of the longest frame: at most `max(9, 2 + N_DUMMY)` (R50). -/
def longestFrame (c : Config) : Nat := max 9 (2 + c.nDummy)

/-! ### Decoding -/

/-- The wire command of the short opcodes, by equality of byte 0, in the order of R81; after them the four
mnemonics that have an opcode byte only, which a mock must recognise (R79, R107). -/
def decodeShort (c : Config) (b : Byte) : Option Instr :=
  if b = c.opStart then some .start
  else if b = c.opStop then some .stop
  else if b = c.opRdata then some .rdata
  else if b = c.opSyocal then some .syocal
  else if b = c.opSfocal then some .sfocal
  else if b = c.opReset then some .reset
  else if b = c.opNop then some .nop
  else if b = c.opGancal then some .gancal
  else if b = c.opLock then some .lock
  else if b = c.opUnlock then some .unlock
  else none

/-- R81: classify a frame by its byte 0; the address operand is byte 0 bits 4:0 (R76), the value operand of WREG
is byte 1 (R77). `none`: not a frame the block emits. -/
def decode (c : Config) : List Byte → Option Instr
  | [] => none
  | b :: rest =>
    if b.extractLsb' 5 3 = 0b001#3 then some (.rreg (b.extractLsb' 0 5))
    else if b.extractLsb' 5 3 = 0b010#3 then rest.head?.map fun v => .wreg (b.extractLsb' 0 5) v
    else decodeShort c b

/-! ### Encoding -/

/-- The frame of a wire command (R79). NOP, GANCAL, LOCK and UNLOCK have no frame: only their opcode byte is
given, as in spec/opcode_table.json. -/
def encode (c : Config) : Instr → List Byte
  | .nop => [c.opNop]
  | .reset => frameC3 c.opReset
  | .start => frameC3 c.opStart
  | .stop => frameC3 c.opStop
  | .rdata => frameRD c
  | .syocal => frameC2 c.opSyocal
  | .gancal => [c.opGancal]
  | .sfocal => frameC2 c.opSfocal
  | .rreg a => frameRR c a
  | .wreg a v => frameWR c a v
  | .lock => [c.opLock]
  | .unlock => [c.opUnlock]

/-! ### A frame, byte for byte -/

/-- The wire command whose frame the bytes are: classified by byte 0 and then compared byte for byte, ARB and every
trailing byte included (R81, R89: "A model must not treat another value as equivalent"). -/
def recognise (c : Config) (f : List Byte) : Option Instr :=
  (decode c f).filter fun i => encode c i == f

/-! ### A word as spec/opcode_table.json numbers it -/

/-- The bytes of an instruction word of `nbits` bits, byte 0 the least significant, zeros above `nbits`, `n` bytes
in all. -/
def wordBytes (n nbits w : Nat) : List Byte :=
  (List.range n).map fun k => BitVec.ofNat 8 ((w % 2 ^ nbits) >>> (8 * k))

/-- The frame that the first bytes of a frame stand for (log entry 5): the table gives byte 0, and the value operand of
WREG, and no bits for the bytes after them. Bytes that begin the frame of the command they classify to, each given byte
as it stands (R89), are completed to that frame; any others stay as given. A WREG given by byte 0 alone, whose value
operand (R77) is then not given, is completed with the value 0x00: the model's choice (log entry 31). -/
def completeFrame (c : Config) (given : List Byte) : List Byte :=
  match decode c (given ++ List.replicate (longestFrame c) 0x00) with
  | some i => if (encode c i).take given.length = given then encode c i else given
  | none => given

/-- What the decoder reads from the word, at the default parameters (the table is written at these, R79). The bytes past
the word are zeros, and so is a value operand of WREG that the word does not give (log entry 31). -/
def decodeTableWord (nbits w : Nat) : Option Instr :=
  decode Config.default (wordBytes (max (longestFrame Config.default) ((nbits + 7) / 8)) nbits w)

end Sys2Proof
end

