-- ==== Sys2Proof/Machine/State.lean ====
section
/-!
DEFINITION. The state of the block (R20), the host port's operations, responses and errors, the events of R59, and
the state after the block's reset (R43, R280). All of it is plain data.
-/

namespace Sys2Proof.Machine

/-! ### The block's own state -/

/-- `ACQ`, the acquisition state register (R24). -/
inductive Acq where
  | idle
  | armed
  | waitingForData
  | dataAvailable
  | fault
  deriving DecidableEq, Repr

/-- The shadows of R20. For each of the seven registers, `none` is `SHV[r] = 0`, no value; `some v` is
`SHV[r] = 1` with `SH[r] = v` (R23, R43: "a model must not read it as any byte"). -/
structure Shadows where
  mode0 : Option Byte
  mode1 : Option Byte
  mode2 : Option Byte
  mode3 : Option Byte
  ref : Option Byte
  pga : Option Byte
  inpmux : Option Byte
  deriving DecidableEq, Repr

/-- The three output lines of R267. -/
inductive Line where
  | resetN
  | pwdnHold
  | startPin
  deriving DecidableEq, Repr

/-- The two durations the block waits out (R292: P3 and P4). -/
inductive Duration where
  | resetLow
  | calSettle
  deriving DecidableEq, Repr

/-! ### Operands and results -/

/-- The eight MODE3 flags, bit 7 first (R37). -/
structure Mode3Flags where
  pwdn : Bool
  statenb : Bool
  crcenb : Bool
  spitim : Bool
  gpio3 : Bool
  gpio2 : Bool
  gpio1 : Bool
  gpio0 : Bool
  deriving DecidableEq, Repr

/-- The eight STATUS flags, bit 7 first (R33). -/
structure StatusFlags where
  lock : Bool
  crcerr : Bool
  pgalAlm : Bool
  pgahAlm : Bool
  reflAlm : Bool
  drdy : Bool
  clock : Bool
  reset : Bool
  deriving DecidableEq, Repr

/-- What an `UnknownIdentifier` names: "the offending name, number or bit pattern" (R251). -/
inductive Unknown where
  | name (n : Ident)
  | number (n : Nat)
  | pattern (width code : Nat)
  deriving DecidableEq, Repr

/-- The five errors of R251 with their payloads. -/
inductive Err where
  | unknownIdentifier (u : Unknown)
  | verificationFailed (register : RegId) (expected actual : Byte)
  | pgaAlarm
  | timeout
  | transportFailure
  deriving DecidableEq, Repr

/-- The value of an `Ok` response. -/
inductive Value where
  /-- an operation that returns nothing -/
  | unit
  /-- PARSE_RREG, ENC_*, READ_REGISTER, CHECK_MODE2, CHECK_ID -/
  | byte (v : Byte)
  /-- BUILD_* -/
  | frame (f : List Byte)
  /-- PARSE_RDATA, READ_DATA: the optional status byte and the 24-bit pattern -/
  | sample (status : Option Byte) (raw : Sample)
  /-- DEC_INPMUX, CHECK_INPMUX -/
  | inputPair (pos neg : Ident)
  /-- DEC_PGA, CHECK_PGA -/
  | pga (bypass : Bool) (gain : Nat)
  /-- DEC_REF, CHECK_REF -/
  | reference (refenb : Bool) (pos neg : Ident)
  /-- DEC_MODE0, CHECK_MODE0 -/
  | mode0 (rate filter : Ident)
  /-- DEC_MODE1, CHECK_MODE1 -/
  | mode1 (chop conv delay : Ident)
  /-- DEC_MODE3, CHECK_MODE3 -/
  | mode3 (f : Mode3Flags)
  /-- DEC_STATUS, CHECK_STATUS -/
  | status (f : StatusFlags)
  /-- RAW24_TO_MV, FINISH, COLLECT_MEASUREMENT: the exact rational of R203 -/
  | millivolts (mv : Rat)
  /-- DEVICE_CONFIG -/
  | deviceConfig (sh : Shadows)
  deriving DecidableEq, Repr

/-- The one response of an operation: `Ok(value)` or `Err(error)` (R7, R250). -/
inductive Response where
  | ok (v : Value)
  | err (e : Err)
  deriving DecidableEq, Repr

/-- The host operations of R4, one constructor each; register, option and mode operands are identifiers (R131). -/
inductive HostOp where
  | buildRreg (r : Ident)
  | buildWreg (r : Ident) (v : Byte)
  | buildStart
  | buildStop
  | buildReset
  | buildRdata
  | buildSyocal
  | buildSfocal
  | parseRreg (rx : List Byte)
  | parseRdata (rx : List Byte) (statenb crcenb : Bool)
  /-- `neg` may be left out; its default is AINCOM (R133). -/
  | encInpmux (pos : Ident) (neg : Option Ident)
  | decInpmux (v : Byte)
  /-- `gain` is a natural number, here and below: the model's choice (log entry 29). -/
  | encPga (bypass : Bool) (gain : Nat)
  | decPga (v : Byte)
  | encMode0 (rate filter : Ident)
  | decMode0 (v : Byte)
  | encMode1 (chop conv delay : Ident)
  | decMode1 (v : Byte)
  | encRef (refenb : Bool) (pos neg : Ident)
  | decRef (v : Byte)
  | encMode3 (f : Mode3Flags)
  | decMode3 (v : Byte)
  | decStatus (v : Byte)
  /-- R200 calls `gain` "a number"; a natural number here is the model's choice (log entry 29). -/
  | raw24ToMv (b0 b1 b2 : Byte) (referenceMv gain : Nat)
  | deviceConfig
  | readRegister (r : Ident)
  | writeRegister (r : Ident) (v : Byte)
  | setInpmux (pos : Ident) (neg : Option Ident)
  | setPga (bypass : Bool) (gain : Nat)
  | setRef (refenb : Bool) (pos neg : Ident)
  | setMode0 (rate filter : Ident)
  | setMode1 (chop conv delay : Ident)
  | setMode2 (v : Byte)
  | setMode3 (f : Mode3Flags)
  | checkInpmux
  | checkPga
  | checkRef
  | checkMode0
  | checkMode1
  | checkMode2
  | checkMode3
  | checkStatus
  | checkId
  | arm
  | enterWait
  | waitPolled
  | waitSignal
  | readData
  | finish (status : Option Byte) (raw : Sample) (referenceMv gain : Nat)
  | collectMeasurement (mode : Ident) (referenceMv gain : Nat)
  | stop
  | calibrateSelf
  | calibrateSystem
  | resetPulse
  deriving DecidableEq, Repr

/-! ### The environment and the host, as data -/

/-- An answer of the environment to one `Xchg` (R14): reply bytes, or the exchange fails. -/
inductive Reply where
  | bytes (l : List Byte)
  | fails
  deriving DecidableEq, Repr

/-- An event of the totally ordered history of R59. -/
inductive Event where
  /-- one exchange: the frame sent and the reply, `none` when it failed -/
  | xchg (tx : List Byte) (rx : Option (List Byte))
  /-- one sample of `DRDY_n` -/
  | sampleDrdy (level : Bool)
  /-- an output line is driven -/
  | drive (line : Line) (level : Bool)
  /-- a delay of at least the named duration -/
  | delay (d : Duration)
  deriving DecidableEq, Repr

/-- What the host port asks for. -/
inductive Request where
  /-- one host operation of R4 -/
  | op (o : HostOp)
  /-- a wire command, given by its frame (log entries 5 and 6) -/
  | frame (f : List Byte)
  /-- the block's reset between operations (R280) -/
  | blockReset
  /-- the block's reset in the middle of an operation, after its first `n` events (R280, U24) -/
  | blockResetDuring (o : HostOp) (n : Nat)
  deriving DecidableEq, Repr

/-- The mnemonics with no builder (R107). -/
inductive Unbuilt where
  | nop
  | gancal
  | lock
  | unlock
  deriving DecidableEq, Repr

/-! ### Reasons to stop -/

/-- The block stops with a fault nowhere: every error of it is a typed response after which it accepts the next
operation (R250, R262). Raised by no one; safe. -/
inductive Fault where
  deriving DecidableEq, Repr

/-- The requests the model gives no meaning. None of them is raised where the spec gives an effect; all are safe
(the model stops where the hardware has no stated behaviour). -/
inductive Refusal where
  /-- An arm of `exec` with no meaning yet. Raised by no arm now; safe. -/
  | notModelled (mnemonic : String)
  /-- A request for NOP, GANCAL, LOCK or UNLOCK, which have no builder: "A host request to build or send one is
  refused" (R107, U11). Raised by their meanings; safe. -/
  | noBuilder (m : Unbuilt)
  /-- An operation in an `ACQ` state its rule does not accept: "the block has no step for it" (R171, D22, U12).
  Raised by every operation with a `require`; safe. -/
  | notAccepted
  /-- PARSE_RREG or PARSE_RDATA on an array shorter than it reads (R108, R109). Raised by those two; safe. -/
  | arrayTooShort
  /-- `reference_mV` outside its `REF_W` bits: outside the operand type (U21). Raised by RAW24_TO_MV, FINISH and
  COLLECT_MEASUREMENT; safe. -/
  | referenceOutOfRange
  /-- Bytes that are "not a frame the block emits" (R81) or differ from one in some byte (R89). Raised by the step
  that serves a frame; safe. -/
  | notACommandFrame
  /-- The configuration is not legal (U14, U15). Raised by every step of such a machine; safe. -/
  | illegalConfiguration
  deriving DecidableEq, Repr

/-! ### The state -/

/-- The machine's state: what R20 gives the block, then the parameters the block is configured with, then the
model's own record of the host port, the transport and the lines. -/
structure State where
  /-- `SH[r]` and `SHV[r]` -/
  sh : Shadows
  /-- `ACQ` -/
  acq : Acq
  /-- `POLLS` -/
  polls : Nat
  /-- the `RESET_n` latch -/
  resetN : Bool
  /-- the `PWDN_HOLD` latch -/
  pwdnHold : Bool
  /-- the `START_PIN` latch -/
  startPin : Bool
  /-- the parameters; no step changes them (log entry 1) -/
  cfg : Config
  /-- the last response on the host port, none before the first -/
  response : Option Response
  /-- the events so far, oldest first (R59) -/
  history : List Event
  /-- the environment's answers to the exchanges to come, oldest first (log entry 3) -/
  replies : List Reply
  /-- the levels of `DRDY_n` at the samples to come, oldest first (log entry 3) -/
  samples : List Bool
  /-- how many answers the environment has given: the argument of the free values -/
  tick : Nat
  /-- the last wait has returned `Ok`: the model's record of what R215's `require` asks beside `ACQ` (log entry 13) -/
  waitDone : Bool
  /-- the host's requests to come, oldest first (log entry 5) -/
  inbox : List Request
  deriving DecidableEq, Repr

/-- No shadow holds a value (R43). -/
def Shadows.empty : Shadows where
  mode0 := none
  mode1 := none
  mode2 := none
  mode3 := none
  ref := none
  pga := none
  inpmux := none

/-- The block right after its reset (R43, R280), configured with the defaults; the model's own fields are empty
(log entry 15). -/
def State.reset : State where
  sh := Shadows.empty
  acq := .idle
  polls := 0
  resetN := true
  pwdnHold := true
  startPin := false
  cfg := Config.default
  response := none
  history := []
  replies := []
  samples := []
  tick := 0
  waitDone := false
  inbox := []

end Sys2Proof.Machine
end

