-- ==== Sys2Proof/Machine/Ops.lean ====
section
/-!
DEFINITION. The named operations over the state: its registers and lines, the environment primitives of R14, the
one way an operation raises an error (R15, R262) and responds, the register transactions of R52 and R53, and the
block's reset (R280).
-/

namespace Sys2Proof.Machine

/-! ### Encodings -/

/-- The encoding of `ACQ` in its 3-bit register (R24, D15); 5 to 7 are never produced. -/
def Acq.code : Acq → BitVec 3
  | .idle => 0
  | .armed => 1
  | .waitingForData => 2
  | .dataAvailable => 3
  | .fault => 4

/-- The numeric code of an error (R251, D15). -/
def Err.code : Err → Nat
  | .unknownIdentifier _ => 1
  | .verificationFailed _ _ _ => 2
  | .pgaAlarm => 3
  | .timeout => 4
  | .transportFailure => 5

/-- The numeric code of a response: 0 is `Ok` (R251). -/
def Response.code : Response → Nat
  | .ok _ => 0
  | .err e => e.code

/-- The least length in milliseconds of a duration, none where none is given; no step depends on it (R292). -/
def Duration.leastMs (c : Config) : Duration → Option Nat
  | .resetLow => some c.tResetLowMs
  | .calSettle => c.tCalSettleMs

/-! ### The shadows -/

/-- `SHV[r]` and `SH[r]`: `none` while `SHV[r] = 0`; a register with no shadow never holds a value (R20, R31). -/
def Shadows.get (sh : Shadows) : RegId → Option Byte
  | .mode0 => sh.mode0
  | .mode1 => sh.mode1
  | .mode2 => sh.mode2
  | .mode3 => sh.mode3
  | .ref => sh.ref
  | .pga => sh.pga
  | .inpmux => sh.inpmux
  | .id => none
  | .status => none
  | .ofcal0 => none
  | .ofcal1 => none
  | .ofcal2 => none
  | .fscal0 => none
  | .fscal1 => none
  | .fscal2 => none
  | .imux => none
  | .imag => none

/-- `SH[r] <- v ; SHV[r] <- 1` for a shadowed register, nothing for another (R172 corner case f). -/
def Shadows.set (sh : Shadows) (r : RegId) (v : Byte) : Shadows :=
  match r with
  | .mode0 => { sh with mode0 := some v }
  | .mode1 => { sh with mode1 := some v }
  | .mode2 => { sh with mode2 := some v }
  | .mode3 => { sh with mode3 := some v }
  | .ref => { sh with ref := some v }
  | .pga => { sh with pga := some v }
  | .inpmux => { sh with inpmux := some v }
  | .id => sh
  | .status => sh
  | .ofcal0 => sh
  | .ofcal1 => sh
  | .ofcal2 => sh
  | .fscal0 => sh
  | .fscal1 => sh
  | .fscal2 => sh
  | .imux => sh
  | .imag => sh

/-- The register has a shadow (R20, R31). -/
def shadowed : RegId → Bool
  | .mode0 => true
  | .mode1 => true
  | .mode2 => true
  | .mode3 => true
  | .ref => true
  | .pga => true
  | .inpmux => true
  | .id => false
  | .status => false
  | .ofcal0 => false
  | .ofcal1 => false
  | .ofcal2 => false
  | .fscal0 => false
  | .fscal1 => false
  | .fscal2 => false
  | .imux => false
  | .imag => false

/-! ### Updates of the state -/

/-- `ACQ <- a` (R13). -/
def State.setAcq (s : State) (a : Acq) : State := { s with acq := a }

/-- `POLLS <- n`. -/
def State.setPolls (s : State) (n : Nat) : State := { s with polls := n }

/-- Record whether the last wait has returned `Ok` (R215; log entry 13). -/
def State.setWaitDone (s : State) (b : Bool) : State := { s with waitDone := b }

/-- Commit a verified write to the shadow (R172). -/
def State.setShadow (s : State) (r : RegId) (v : Byte) : State := { s with sh := s.sh.set r v }

/-- Append an event to the history (R59). -/
def State.record (s : State) (e : Event) : State := { s with history := s.history ++ [e] }

/-- Set an output latch. -/
def State.setLine (s : State) (l : Line) (level : Bool) : State :=
  match l with
  | .resetN => { s with resetN := level }
  | .pwdnHold => { s with pwdnHold := level }
  | .startPin => { s with startPin := level }

/-! ### The environment primitives (R14) -/

/-- `n` reply bytes: those the environment's list gives, free values past its end (log entry 4). -/
def fillReply (tick n : Nat) (l : List Byte) : List Byte :=
  (List.range n).map fun i => l.getD i (Config.freeByte tick i)

/-- The environment's answer to an exchange of `n` bytes: the next listed one, else a free one (log entry 3). -/
def State.answer (s : State) (n : Nat) : Option (List Byte) :=
  match s.replies with
  | .bytes l :: _ => some (fillReply s.tick n l)
  | .fails :: _ => none
  | [] => if Config.freeFails s.tick then none else some (fillReply s.tick n [])

/-- The state after an exchange: the answer is taken and the event recorded. -/
def State.afterXchg (s : State) (tx : List Byte) : State :=
  { s with replies := s.replies.tail, tick := s.tick + 1 }.record (.xchg tx (s.answer tx.length))

/-- The level of `DRDY_n` at the next sample (R14). -/
def State.level (s : State) : Bool :=
  match s.samples with
  | b :: _ => b
  | [] => Config.freeLevel s.tick

/-- The state after `SampleDRDY()`. -/
def State.afterSample (s : State) : State :=
  { s with samples := s.samples.tail, tick := s.tick + 1 }.record (.sampleDrdy s.level)

/-- `Drive(line, level)`. -/
def State.drive (s : State) (l : Line) (level : Bool) : State :=
  (s.setLine l level).record (.drive l level)

/-- `Delay(t)`: reads and writes no state of the block (R14). -/
def State.delay (s : State) (d : Duration) : State := s.record (.delay d)

/-! ### Results, errors, responses -/

/-- What an operation answers, with the state it leaves: `return v` or `raise E` (R15). -/
abbrev Res (α : Type) := Except Err α × State

/-- `return v` (R15). -/
def done {α : Type} (v : α) (s : State) : Res α := (.ok v, s)

/-- The part of the sequence an operation runs in, which R262 asks of a `TransportFailure`. -/
inductive Phase where
  /-- register operations, STOP, the calibrations, the pure functions -/
  | control
  /-- ARM, WAIT_POLLED, WAIT_SIGNAL, READ_DATA, FINISH -/
  | acquisition
  deriving DecidableEq, Repr

/-- The table of R262: does the error put `ACQ` in Fault? -/
def Err.entersFault (e : Err) (p : Phase) : Bool :=
  match e with
  | .unknownIdentifier _ => false
  | .verificationFailed _ _ _ => false
  | .pgaAlarm => true
  | .timeout => true
  | .transportFailure => decide (p = .acquisition)

/-- Error entry, the block's taking of an exception (R262): the state change of its table, then `Err(e)`; nothing
is saved, no other state changes. -/
def raise {α : Type} (e : Err) (p : Phase) (s : State) : Res α :=
  (.error e, if e.entersFault p then s.setAcq .fault else s)

/-- Leaving Fault: `ACQ` as ARM, RESET_PULSE and FINISH leave it; there is no return instruction and nothing to
restore (R263). -/
def leaveTo (a : Acq) (s : State) : State := s.setAcq a

/-- Go on with the value of a result; an error ends the operation (R15: no later line runs). -/
def Res.andThen {α β : Type} (r : Res α) (k : α → State → Res β) : Res β :=
  match r with
  | (.ok v, s) => k v s
  | (.error e, s) => (.error e, s)

/-- The result with its value seen through `f`. -/
def Res.mapValue {α β : Type} (f : α → β) (r : Res α) : Res β :=
  r.andThen fun v s => done (f v) s

/-- The response a result gives on the host port. -/
def toResponse : Except Err Value → Response
  | .ok v => .ok v
  | .error e => .err e

/-- Respond: the operation ends with exactly one response (R250). -/
def respond (r : Res Value) : Host.Outcome State Fault Refusal :=
  .next { r.2 with response := some (toResponse r.1) }

/-- Lift a look-up that may name nothing: `raise UnknownIdentifier` (R252); no state changes. -/
def known {α : Type} (u : Unknown) (x : Option α) (s : State) : Res α :=
  match x with
  | some v => done v s
  | none => raise (.unknownIdentifier u) .control s

/-! ### Acceptance -/

/-- `require` (D22): where the condition is false the block has no step for the operation. -/
def accept (ok : Bool) (k : Host.Outcome State Fault Refusal) : Host.Outcome State Fault Refusal :=
  if ok then k else .refused .notAccepted

/-- `ACQ in {Idle, Fault}` (R171, R210, R220 to R223). -/
def Acq.resting : Acq → Bool
  | .idle => true
  | .fault => true
  | .armed => false
  | .waitingForData => false
  | .dataAvailable => false

/-! ### Register transactions -/

/-- One exchange in an operation: the reply, or `TransportFailure` (R14, R257). -/
def exchange (p : Phase) (tx : List Byte) (s : State) : Res (List Byte) :=
  match s.answer tx.length with
  | some rx => done rx (s.afterXchg tx)
  | none => raise .transportFailure p (s.afterXchg tx)

/-- Byte `i` of a reply; every reader reads inside the frame it sent. -/
def replyByte (rx : List Byte) (i : Nat) : Byte := rx.getD i (Config.absentByte i)

/-- `MemRead(a, 1)`: one RREG exchange; the value is `rx[2]` (R52, R108). -/
def memRead (p : Phase) (a : Addr) (s : State) : Res Byte :=
  (exchange p (frameRR s.cfg a) s).mapValue fun rx => replyByte rx 2

/-- `MemWrite(a, 1, v)`: one WREG exchange, its reply discarded (R53). -/
def memWrite (p : Phase) (a : Addr) (v : Byte) (s : State) : Res Unit :=
  (exchange p (frameWR s.cfg a v) s).mapValue fun _ => ()

/-! ### The block's reset (R280) -/

/-- The table of R280; no exchange and no line pulse, and the operation in progress gets no response. The
parameters, the history and the environment are not the reset's; no wait has returned since it (log entry 16). -/
def State.blockReset (s : State) : State :=
  { s with sh := Shadows.empty, acq := .idle, polls := 0, resetN := true, pwdnHold := true, startPin := false,
           response := none, waitDone := false }

/-- How many of the events are answers of the environment to an exchange. -/
def countXchg (es : List Event) : Nat :=
  es.countP fun e => match e with
    | .xchg _ _ => true
    | .sampleDrdy _ => false
    | .drive _ _ => false
    | .delay _ => false

/-- How many of the events are samples of `DRDY_n`. -/
def countSample (es : List Event) : Nat :=
  es.countP fun e => match e with
    | .xchg _ _ => false
    | .sampleDrdy _ => true
    | .drive _ _ => false
    | .delay _ => false

/-- The block's reset after the first `n` events of an operation that would take `s` to `t` (U24): those events
have happened and their answers are taken, the rest never happen, there is no response. -/
def State.abandon (s t : State) (n : Nat) : State :=
  let es := (t.history.drop s.history.length).take n
  { s with history := s.history ++ es, replies := s.replies.drop (countXchg es),
           samples := s.samples.drop (countSample es),
           tick := s.tick + countXchg es + countSample es }.blockReset

end Sys2Proof.Machine
end

