-- ==== Sys2Proof/Machine/Operands.lean ====
section
/-!
DEFINITION. Every operand form of the host operations: register names, table names and codes, gains, the
reference, and the placing of fields in a register byte (R76, R77, R130, R131, R135).
-/

namespace Sys2Proof.Machine

/-! ### Names -/

/-- A register operand; `UnknownIdentifier` when it names no member of `RegId` (R252 row 1). -/
def regOperand (n : Ident) (s : State) : Res RegId := known (.name n) (RegId.ofName n) s

/-- The register at the address operand of a wire command; an address `RegAddr` gives to no name is an unknown
register (R21, R51, log entry 9). -/
def addrOperand (a : Addr) (s : State) : Res RegId := known (.number a.toNat) (s.cfg.regMap.regAt a) s

/-- `T.enc(n)`, raising `UnknownIdentifier(n)` (R130, R252 row 2). -/
def encName {w : Nat} (t : Table w) (n : Ident) (s : State) : Res (BitVec w) := known (.name n) (t.enc n) s

/-- `T.dec(c)`, raising `UnknownIdentifier` with the field's bit pattern (R130, R252 row 3). -/
def decCode {w : Nat} (t : Table w) (c : BitVec w) (s : State) : Res Ident :=
  known (.pattern w c.toNat) (t.dec c) s

/-- The default negative terminal, the internal common node (R133). In a `PinTable` without it a pair whose `neg` is
left out names an unknown pin: the model's choice (log entry 30). -/
def defaultNeg : Ident := "AINCOM"

/-! ### Gains -/

/-- `GainTable.enc` (R135): the code of a gain, none outside 1, 2, 4, ..., 128. -/
def gainCode (gain : Nat) : Option (BitVec 3) :=
  if gain = 1 then some 0
  else if gain = 2 then some 1
  else if gain = 4 then some 2
  else if gain = 8 then some 3
  else if gain = 16 then some 4
  else if gain = 32 then some 5
  else if gain = 64 then some 6
  else if gain = 128 then some 7
  else none

/-- The gain of a code: `2 ^ g` (R137). -/
def gainOfCode (g : BitVec 3) : Nat := 2 ^ g.toNat

/-- A gain operand; `UnknownIdentifier(gain)` outside `GainTable` (R252 row 4, U20). That a gain is a natural number,
so that no fractional gain can be issued, is the model's choice (log entry 29). -/
def gainOperand (gain : Nat) (s : State) : Res (BitVec 3) := known (.number gain) (gainCode gain) s

/-! ### The reference -/

/-- `reference_mV` is a number of `REF_W` bits (R200, U21). -/
def referenceInRange (c : Config) (referenceMv : Nat) : Bool := decide (referenceMv < 2 ^ c.refW)

/-- An operation with a `reference_mV` operand: a number outside its type is refused (U21). -/
def withReference (referenceMv : Nat) (s : State) (k : Host.Outcome State Fault Refusal) :
    Host.Outcome State Fault Refusal :=
  if referenceInRange s.cfg referenceMv then k else .refused .referenceOutOfRange

/-! ### Modes -/

/-- The two wait strategies of COLLECT_MEASUREMENT (R216). -/
inductive WaitMode where
  | polled
  | signalDriven
  deriving DecidableEq, Repr

/-- The wait strategy an identifier names (R216). -/
def waitModeOf (n : Ident) : Option WaitMode :=
  if n = "Polled" then some .polled
  else if n = "SignalDriven" then some .signalDriven
  else none

/-- A mode operand; `UnknownIdentifier(mode)` when it is neither (R252 row 5). -/
def modeOperand (n : Ident) (s : State) : Res WaitMode := known (.name n) (waitModeOf n) s

/-! ### Placing fields in a byte (R77) -/

/-- `MUXP || MUXN`. -/
def inpmuxByte (p n : BitVec 4) : Byte := p ++ n

/-- `BYPASS || 0b0000 || GAIN`. -/
def pgaByte (bypass : Bool) (g : BitVec 3) : Byte := BitVec.ofBool bypass ++ 0#4 ++ g

/-- `0b000 || REFENB || RMUXP || RMUXN`. -/
def refByte (refenb : Bool) (p n : BitVec 2) : Byte := 0#3 ++ BitVec.ofBool refenb ++ p ++ n

/-- `DR || FILTER`. -/
def mode0Byte (d : BitVec 5) (f : BitVec 3) : Byte := d ++ f

/-- `0 || CHOP || CONVRT || DELAY`. -/
def mode1Byte (c : BitVec 2) (t : BitVec 1) (d : BitVec 4) : Byte := 0#1 ++ c ++ t ++ d

/-- `v[lo+w-1:lo]` (R11). -/
def field (v : Byte) (lo w : Nat) : BitVec w := v.extractLsb' lo w

end Sys2Proof.Machine
end

