-- ==== Sys2Proof/Machine/Flags.lean ====
section
/-!
DEFINITION. Every flag computation: the MODE3 and STATUS flags, the active frame layout, the data-ready test and
the PGA-alarm predicate (R28, R29, R33, R37, R84, R150 to R152, R212, R214).
-/

namespace Sys2Proof.Machine

/-- ENC_MODE3: bit 7 power-down down to bit 0 GPIO0 (R150). -/
def mode3Byte (f : Mode3Flags) : Byte :=
  BitVec.ofBool f.pwdn ++ BitVec.ofBool f.statenb ++ BitVec.ofBool f.crcenb ++ BitVec.ofBool f.spitim ++
    BitVec.ofBool f.gpio3 ++ BitVec.ofBool f.gpio2 ++ BitVec.ofBool f.gpio1 ++ BitVec.ofBool f.gpio0

/-- DEC_MODE3 (R151). -/
def mode3Flags (v : Byte) : Mode3Flags where
  pwdn := v.getLsbD 7
  statenb := v.getLsbD 6
  crcenb := v.getLsbD 5
  spitim := v.getLsbD 4
  gpio3 := v.getLsbD 3
  gpio2 := v.getLsbD 2
  gpio1 := v.getLsbD 1
  gpio0 := v.getLsbD 0

/-- DEC_STATUS (R152); the status byte of an RDATA reply has the same layout (D10). -/
def statusFlags (v : Byte) : StatusFlags where
  lock := v.getLsbD 7
  crcerr := v.getLsbD 6
  pgalAlm := v.getLsbD 5
  pgahAlm := v.getLsbD 4
  reflAlm := v.getLsbD 3
  drdy := v.getLsbD 2
  clock := v.getLsbD 1
  reset := v.getLsbD 0

/-- `LAYOUT()`: (STATENB, CRCENB) from `SH[MODE3]` when it holds a value, else from `MODE3_POWERON` (R29). -/
def State.layout (s : State) : Bool × Bool :=
  let f := mode3Flags (s.sh.mode3.getD s.cfg.mode3PowerOn)
  (f.statenb, f.crcenb)

/-- `SampleOffset(statenb, crcenb)` (R84, R109). -/
def sampleOffset (c : Config) (statenb crcenb : Bool) : Nat :=
  match statenb, crcenb with
  | false, false => 2
  | true, false => 3
  | false, true => c.offCrcOnly
  | true, true => c.offBoth

/-- The data-ready test of a poll: bit 2 of the value byte (R212). -/
def dataReady (v : Byte) : Bool := (statusFlags v).drdy

/-- The sample is a saturation code (R214). -/
def saturated (c : Config) (raw : Sample) : Bool := decide (raw = c.satPos) || decide (raw = c.satNeg)

/-- ALARM, the PGA-alarm predicate (R214). -/
def alarm (c : Config) (status : Option Byte) (raw : Sample) : Bool :=
  match status with
  | some sb => (statusFlags sb).pgalAlm || (statusFlags sb).pgahAlm || saturated c raw
  | none => c.satCheckWithoutStatus && saturated c raw

end Sys2Proof.Machine
end

