-- ==== Sys2Proof/Machine/Codec.lean ====
section
/-!
DEFINITION. The command-frame codec (40_frame_codec.md): builders and parsers, pure operations accepted in every
`ACQ` state, and the wire mnemonics the block only builds (RESET) or has no builder for (NOP, GANCAL, LOCK,
UNLOCK).
-/

namespace Sys2Proof.Machine

/-! ### Builders -/

/-- BUILD_RREG (R100). -/
def opBuildRreg (r : Ident) (s : State) : Host.Outcome State Fault Refusal :=
  respond ((regOperand r s).mapValue fun reg => .frame (frameRR s.cfg (s.cfg.regMap.addr reg)))

/-- BUILD_WREG (R101). -/
def opBuildWreg (r : Ident) (v : Byte) (s : State) : Host.Outcome State Fault Refusal :=
  respond ((regOperand r s).mapValue fun reg => .frame (frameWR s.cfg (s.cfg.regMap.addr reg) v))

/-- BUILD_START (R102). -/
def opBuildStart (s : State) : Host.Outcome State Fault Refusal := respond (done (.frame (frameC3 s.cfg.opStart)) s)

/-- BUILD_STOP (R103). -/
def opBuildStop (s : State) : Host.Outcome State Fault Refusal := respond (done (.frame (frameC3 s.cfg.opStop)) s)

/-- BUILD_RESET (R104): the frame is built and transmitted by no operation. -/
def opBuildReset (s : State) : Host.Outcome State Fault Refusal := respond (done (.frame (frameC3 s.cfg.opReset)) s)

/-- BUILD_RDATA (R105). -/
def opBuildRdata (s : State) : Host.Outcome State Fault Refusal := respond (done (.frame (frameRD s.cfg)) s)

/-- BUILD_SYOCAL (R106). -/
def opBuildSyocal (s : State) : Host.Outcome State Fault Refusal := respond (done (.frame (frameC2 s.cfg.opSyocal)) s)

/-- BUILD_SFOCAL (R110). -/
def opBuildSfocal (s : State) : Host.Outcome State Fault Refusal := respond (done (.frame (frameC2 s.cfg.opSfocal)) s)

/-! ### Parsers -/

/-- The sample at offset `o`, big-endian: `rx[o] || rx[o+1] || rx[o+2]` (R55, R109). -/
def sampleAt (rx : List Byte) (o : Nat) : Sample :=
  replyByte rx o ++ replyByte rx (o + 1) ++ replyByte rx (o + 2)

/-- The status byte of a reply, the byte before the sample, when the layout has one (R84, R109). -/
def statusAt (rx : List Byte) (statenb : Bool) (o : Nat) : Option Byte :=
  if statenb then some (replyByte rx (o - 1)) else none

/-- PARSE_RDATA on an array long enough for the layout (R109). -/
def parseRdata (c : Config) (rx : List Byte) (statenb crcenb : Bool) : Option Byte × Sample :=
  let o := sampleOffset c statenb crcenb
  (statusAt rx statenb o, sampleAt rx o)

/-- PARSE_RREG (R108): the value is `rx[2]`; a shorter array is refused. -/
def opParseRreg (rx : List Byte) (s : State) : Host.Outcome State Fault Refusal :=
  if rx.length < 3 then .refused .arrayTooShort else respond (done (.byte (replyByte rx 2)) s)

/-- PARSE_RDATA (R109): an array shorter than offset + 3 is refused. -/
def opParseRdata (rx : List Byte) (statenb crcenb : Bool) (s : State) : Host.Outcome State Fault Refusal :=
  if rx.length < sampleOffset s.cfg statenb crcenb + 3 then .refused .arrayTooShort
  else
    let p := parseRdata s.cfg rx statenb crcenb
    respond (done (.sample p.1 p.2) s)

/-! ### Wire mnemonics with no operation that transmits them -/

/-- RESET: the block has the builder only (R85, R104; log entry 7). -/
def execReset (s : State) : Host.Outcome State Fault Refusal := opBuildReset s

/-- NOP: "A host request to build or send one is refused" (R107). -/
def execNop (_s : State) : Host.Outcome State Fault Refusal := .refused (.noBuilder .nop)

/-- GANCAL: refused (R107). -/
def execGancal (_s : State) : Host.Outcome State Fault Refusal := .refused (.noBuilder .gancal)

/-- LOCK: refused (R107). -/
def execLock (_s : State) : Host.Outcome State Fault Refusal := .refused (.noBuilder .lock)

/-- UNLOCK: refused (R107). -/
def execUnlock (_s : State) : Host.Outcome State Fault Refusal := .refused (.noBuilder .unlock)

end Sys2Proof.Machine
end

