-- ==== Sys2Proof/Machine/Converter.lean ====
section
/-!
DEFINITION. The 24-bit two's-complement to millivolt converter (43_conversion.md). The result is the exact
rational of R203.
-/

namespace Sys2Proof.Machine

/-- `s24(raw)`, the signed reading (R12): `raw` below 2^23, else `raw - 2^24`. -/
def s24 (raw : Sample) : Int :=
  if raw.toNat < 2 ^ 23 then (raw.toNat : Int) else (raw.toNat : Int) - 2 ^ 24

/-- `N / D` with `N = s * reference_mV` and `D = gain * 2^23`, one exact division (R200, R201, R203). -/
def millivolts (raw : Sample) (referenceMv gain : Nat) : Rat :=
  mkRat (s24 raw * (referenceMv : Int)) (gain * 2 ^ 23)

/-- RAW24_TO_MV (R200): a gain outside the table is `UnknownIdentifier`, so the divisor is never zero. -/
def raw24ToMv (raw : Sample) (referenceMv gain : Nat) (s : State) : Res Value :=
  (gainOperand gain s).mapValue fun _ => .millivolts (millivolts raw referenceMv gain)

/-- RAW24_TO_MV as the host issues it: three bytes, big-endian (R200). -/
def opRaw24ToMv (b0 b1 b2 : Byte) (referenceMv gain : Nat) (s : State) : Host.Outcome State Fault Refusal :=
  withReference referenceMv s (respond (raw24ToMv (b0 ++ b1 ++ b2) referenceMv gain s))

end Sys2Proof.Machine
end

