-- ==== Sys2Proof/Machine/Acquisition.lean ====
section
/-!
DEFINITION. The acquisition sequencer (44_acquisition.md, R210 to R217): its phases, the composite
COLLECT_MEASUREMENT, and the wire commands START and RDATA.
-/

namespace Sys2Proof.Machine

/-! ### The phases -/

/-- ARM past its `require`: the START exchange, then Armed (R210). -/
def arm (s : State) : Res Unit :=
  (exchange .acquisition (frameC3 s.cfg.opStart) s).andThen fun _ s => done () (leaveTo .armed s)

/-- ENTER_WAIT past its `require` (R211); the wait that begins has not returned. -/
def enterWait (s : State) : State := ((s.setPolls 0).setAcq .waitingForData).setWaitDone false

/-- The loop of WAIT_POLLED with `left` polls left of the budget (R212): at 0 `Timeout`; else one poll more and a
STATUS read, ready when bit 2 of its value is set. -/
def pollLoop : Nat → State → Res Unit
  | 0, s => raise .timeout .acquisition s
  | left + 1, s =>
    (memRead .acquisition (s.cfg.regMap.addr .status) (s.setPolls (s.polls + 1))).andThen fun v s =>
      if dataReady v then done () s else pollLoop left s

/-- The loop of WAIT_SIGNAL with `left` samples left of the budget (R213): ready when `DRDY_n` is 0. -/
def sampleLoop : Nat → State → Res Unit
  | 0, s => raise .timeout .acquisition s
  | left + 1, s =>
    let s := s.setPolls (s.polls + 1)
    if s.level then sampleLoop left s.afterSample else done () s.afterSample

/-- A wait returns `Ok`: `ACQ` stays WaitingForData, and that the wait has returned is on record (R224, R215). -/
def waitOk (s : State) : Res Unit := done () (s.setWaitDone true)

/-- WAIT_POLLED past its `require`: `POLLS` starts at 0, so the whole budget is left (R212). -/
def waitPolled (s : State) : Res Unit := (pollLoop s.cfg.retryBudget (enterWait s)).andThen fun _ s => waitOk s

/-- WAIT_SIGNAL past its `require` (R213). -/
def waitSignal (s : State) : Res Unit := (sampleLoop s.cfg.retryBudget (enterWait s)).andThen fun _ s => waitOk s

/-- READ_DATA past its `require`: the RDATA exchange, the parse by the layout of this moment, then DataAvailable
(R215). -/
def readData (s : State) : Res (Option Byte × Sample) :=
  (exchange .acquisition (frameRD s.cfg) s).andThen fun rx t =>
    done (parseRdata s.cfg rx s.layout.1 s.layout.2) (leaveTo .dataAvailable t)

/-- FINISH past its `require`: the alarm test before the gain test, then the conversion and Idle (R217, R261). -/
def finish (status : Option Byte) (raw : Sample) (referenceMv gain : Nat) (s : State) : Res Value :=
  if alarm s.cfg status raw then raise .pgaAlarm .acquisition s
  else (raw24ToMv raw referenceMv gain s).andThen fun v s => done v (leaveTo .idle s)

/-- The wait of a mode (R216). -/
def wait : WaitMode → State → Res Unit
  | .polled, s => waitPolled s
  | .signalDriven, s => waitSignal s

/-- COLLECT_MEASUREMENT past its `require`: mode, gain, then the four phases (R216). -/
def collect (mode : Ident) (referenceMv gain : Nat) (s : State) : Res Value :=
  (modeOperand mode s).andThen fun m s =>
    (gainOperand gain s).andThen fun _ s =>
      (arm s).andThen fun _ s =>
        (wait m s).andThen fun _ s =>
          (readData s).andThen fun d s => finish d.1 d.2 referenceMv gain s

/-! ### The host operations -/

/-- ARM: required `ACQ` Idle or Fault (R210). -/
def opArm (s : State) : Host.Outcome State Fault Refusal :=
  accept s.acq.resting (respond ((arm s).mapValue fun _ => .unit))

/-- ENTER_WAIT: required `ACQ` Armed (R211). -/
def opEnterWait (s : State) : Host.Outcome State Fault Refusal :=
  accept (decide (s.acq = .armed)) (respond (done .unit (enterWait s)))

/-- WAIT_POLLED: required `ACQ` Armed, by its ENTER_WAIT (R211, R212). -/
def opWaitPolled (s : State) : Host.Outcome State Fault Refusal :=
  accept (decide (s.acq = .armed)) (respond ((waitPolled s).mapValue fun _ => .unit))

/-- WAIT_SIGNAL: required `ACQ` Armed, by its ENTER_WAIT (R211, R213). -/
def opWaitSignal (s : State) : Host.Outcome State Fault Refusal :=
  accept (decide (s.acq = .armed)) (respond ((waitSignal s).mapValue fun _ => .unit))

/-- The `require` of READ_DATA: `ACQ` is WaitingForData "and a WAIT has returned Ok" (R215). `POLLS` is not read: no
rule reads it between operations (R25, U19; log entry 13). -/
def waitReturned (a : Acq) (waitDone : Bool) : Bool := decide (a = .waitingForData) && waitDone

/-- READ_DATA: required `ACQ` WaitingForData and a wait that has returned `Ok` (R215; log entry 13). -/
def opReadData (s : State) : Host.Outcome State Fault Refusal :=
  accept (waitReturned s.acq s.waitDone) (respond ((readData s).mapValue fun d => .sample d.1 d.2))

/-- FINISH: required `ACQ` DataAvailable (R217). -/
def opFinish (status : Option Byte) (raw : Sample) (referenceMv gain : Nat) (s : State) :
    Host.Outcome State Fault Refusal :=
  withReference referenceMv s
    (accept (decide (s.acq = .dataAvailable)) (respond (finish status raw referenceMv gain s)))

/-- COLLECT_MEASUREMENT: required `ACQ` Idle or Fault (R216). -/
def opCollectMeasurement (mode : Ident) (referenceMv gain : Nat) (s : State) : Host.Outcome State Fault Refusal :=
  withReference referenceMv s (accept s.acq.resting (respond (collect mode referenceMv gain s)))

/-! ### The wire commands -/

/-- START: sent by ARM (R210). -/
def execStart (s : State) : Host.Outcome State Fault Refusal := opArm s

/-- RDATA: sent by READ_DATA (R215). -/
def execRdata (s : State) : Host.Outcome State Fault Refusal := opReadData s

end Sys2Proof.Machine
end

