-- ==== Sys2Proof/Machine/Control.lean ====
section
/-!
DEFINITION. Device control (44_acquisition.md, R220 to R223): STOP, the two calibrations, RESET_PULSE, and the wire
commands STOP, SFOCAL and SYOCAL.
-/

namespace Sys2Proof.Machine

/-- STOP past its `require`: one exchange, `ACQ` unchanged (R220). -/
def stop (s : State) : Res Unit := (exchange .control (frameC3 s.cfg.opStop) s).mapValue fun _ => ()

/-- A calibration past its `require`: one exchange, then the settle delay; a failure runs no delay (R221, R223,
R262). -/
def calibrate (op : Byte) (s : State) : Res Unit :=
  (exchange .control (frameC2 op) s).andThen fun _ s => done () (s.delay .calSettle)

/-- RESET_PULSE past its `require`: the line low, the delay, the line high, then Idle; the shadows keep their
content (R222). -/
def resetPulse (s : State) : State :=
  leaveTo .idle (((s.drive .resetN false).delay .resetLow).drive .resetN true)

/-- STOP: required `ACQ` Idle or Fault (R220). -/
def opStop (s : State) : Host.Outcome State Fault Refusal :=
  accept s.acq.resting (respond ((stop s).mapValue fun _ => .unit))

/-- CALIBRATE_SELF: the SFOCAL frame (R221). -/
def opCalibrateSelf (s : State) : Host.Outcome State Fault Refusal :=
  accept s.acq.resting (respond ((calibrate s.cfg.opSfocal s).mapValue fun _ => .unit))

/-- CALIBRATE_SYSTEM: the SYOCAL frame (R223). -/
def opCalibrateSystem (s : State) : Host.Outcome State Fault Refusal :=
  accept s.acq.resting (respond ((calibrate s.cfg.opSyocal s).mapValue fun _ => .unit))

/-- RESET_PULSE: required `ACQ` Idle or Fault (R222). -/
def opResetPulse (s : State) : Host.Outcome State Fault Refusal :=
  accept s.acq.resting (respond (done .unit (resetPulse s)))

/-- STOP on the wire: sent by STOP (R220). -/
def execStop (s : State) : Host.Outcome State Fault Refusal := opStop s

/-- SFOCAL: sent by CALIBRATE_SELF (R221). -/
def execSfocal (s : State) : Host.Outcome State Fault Refusal := opCalibrateSelf s

/-- SYOCAL: sent by CALIBRATE_SYSTEM (R223). -/
def execSyocal (s : State) : Host.Outcome State Fault Refusal := opCalibrateSystem s

end Sys2Proof.Machine
end

