-- ==== Sys2Proof/Machine/Fields.lean ====
section
/-!
DEFINITION. The bit-field codecs of the device registers (41_field_codecs.md). Each `enc…` and `dec…` is the pure
function of its rule as a result over a state it leaves alone; each `op…` is the host operation, accepted in every
`ACQ` state. Operands are tested in the order of R261.
-/

namespace Sys2Proof.Machine

/-! ### The functions -/

/-- ENC_INPMUX (R133): `pos` first; `neg` defaults to the internal common node. -/
def encInpmux (pos : Ident) (neg : Option Ident) (s : State) : Res Byte :=
  (encName s.cfg.pinTable pos s).andThen fun p s =>
    (encName s.cfg.pinTable (neg.getD defaultNeg) s).mapValue fun n => inpmuxByte p n

/-- DEC_INPMUX (R134): the high nibble first. -/
def decInpmux (v : Byte) (s : State) : Res Value :=
  (decCode s.cfg.pinTable (field v 4 4) s).andThen fun p s =>
    (decCode s.cfg.pinTable (field v 0 4) s).mapValue fun n => .inputPair p n

/-- ENC_PGA (R136). -/
def encPga (bypass : Bool) (gain : Nat) (s : State) : Res Byte :=
  (gainOperand gain s).mapValue fun g => pgaByte bypass g

/-- DEC_PGA (R137): bits 6:3 are ignored. -/
def decPga (v : Byte) (s : State) : Res Value := done (.pga (v.getLsbD 7) (gainOfCode (field v 0 3))) s

/-- ENC_MODE0 (R141): `rate` first. -/
def encMode0 (rate filter : Ident) (s : State) : Res Byte :=
  (encName s.cfg.rateTable rate s).andThen fun d s =>
    (encName s.cfg.filterTable filter s).mapValue fun f => mode0Byte d f

/-- DEC_MODE0 (R142): DR first. -/
def decMode0 (v : Byte) (s : State) : Res Value :=
  (decCode s.cfg.rateTable (field v 3 5) s).andThen fun d s =>
    (decCode s.cfg.filterTable (field v 0 3) s).mapValue fun f => .mode0 d f

/-- ENC_MODE1 (R144): operands in the order written. -/
def encMode1 (chop conv delay : Ident) (s : State) : Res Byte :=
  (encName s.cfg.chopTable chop s).andThen fun c s =>
    (encName s.cfg.convTable conv s).andThen fun t s =>
      (encName s.cfg.delayTable delay s).mapValue fun d => mode1Byte c t d

/-- DEC_MODE1 (R145): from the most significant field down; bit 7 is ignored. -/
def decMode1 (v : Byte) (s : State) : Res Value :=
  (decCode s.cfg.chopTable (field v 5 2) s).andThen fun c s =>
    (decCode s.cfg.convTable (field v 4 1) s).andThen fun t s =>
      (decCode s.cfg.delayTable (field v 0 4) s).mapValue fun d => .mode1 c t d

/-- ENC_REF (R147): `pos` first. -/
def encRef (refenb : Bool) (pos neg : Ident) (s : State) : Res Byte :=
  (encName s.cfg.refPTable pos s).andThen fun p s =>
    (encName s.cfg.refNTable neg s).mapValue fun n => refByte refenb p n

/-- DEC_REF (R148): bits 7:5 are ignored. -/
def decRef (v : Byte) (s : State) : Res Value :=
  (decCode s.cfg.refPTable (field v 2 2) s).andThen fun p s =>
    (decCode s.cfg.refNTable (field v 0 2) s).mapValue fun n => .reference (v.getLsbD 4) p n

/-! ### The host operations -/

/-- ENC_INPMUX (R133). -/
def opEncInpmux (pos : Ident) (neg : Option Ident) (s : State) : Host.Outcome State Fault Refusal :=
  respond ((encInpmux pos neg s).mapValue .byte)

/-- DEC_INPMUX (R134). -/
def opDecInpmux (v : Byte) (s : State) : Host.Outcome State Fault Refusal := respond (decInpmux v s)

/-- ENC_PGA (R136). -/
def opEncPga (bypass : Bool) (gain : Nat) (s : State) : Host.Outcome State Fault Refusal :=
  respond ((encPga bypass gain s).mapValue .byte)

/-- DEC_PGA (R137). -/
def opDecPga (v : Byte) (s : State) : Host.Outcome State Fault Refusal := respond (decPga v s)

/-- ENC_MODE0 (R141). -/
def opEncMode0 (rate filter : Ident) (s : State) : Host.Outcome State Fault Refusal :=
  respond ((encMode0 rate filter s).mapValue .byte)

/-- DEC_MODE0 (R142). -/
def opDecMode0 (v : Byte) (s : State) : Host.Outcome State Fault Refusal := respond (decMode0 v s)

/-- ENC_MODE1 (R144). -/
def opEncMode1 (chop conv delay : Ident) (s : State) : Host.Outcome State Fault Refusal :=
  respond ((encMode1 chop conv delay s).mapValue .byte)

/-- DEC_MODE1 (R145). -/
def opDecMode1 (v : Byte) (s : State) : Host.Outcome State Fault Refusal := respond (decMode1 v s)

/-- ENC_REF (R147). -/
def opEncRef (refenb : Bool) (pos neg : Ident) (s : State) : Host.Outcome State Fault Refusal :=
  respond ((encRef refenb pos neg s).mapValue .byte)

/-- DEC_REF (R148). -/
def opDecRef (v : Byte) (s : State) : Host.Outcome State Fault Refusal := respond (decRef v s)

/-- ENC_MODE3 (R150). -/
def opEncMode3 (f : Mode3Flags) (s : State) : Host.Outcome State Fault Refusal :=
  respond (done (.byte (mode3Byte f)) s)

/-- DEC_MODE3 (R151). -/
def opDecMode3 (v : Byte) (s : State) : Host.Outcome State Fault Refusal :=
  respond (done (.mode3 (mode3Flags v)) s)

/-- DEC_STATUS (R152). -/
def opDecStatus (v : Byte) (s : State) : Host.Outcome State Fault Refusal :=
  respond (done (.status (statusFlags v)) s)

end Sys2Proof.Machine
end

