-- ==== Sys2Proof/Machine/Registers.lean ====
section
/-!
DEFINITION. Register access (42_register_access.md): the read, the write+verify cycle, the typed setters and
getters, the read port of the shadows, and the wire commands RREG and WREG.
-/

namespace Sys2Proof.Machine

/-! ### Read, and write+verify -/

/-- READ_REGISTER of a known register (R170). -/
def readRegister (r : RegId) (s : State) : Res Byte := memRead .control (s.cfg.regMap.addr r) s

/-- The comparison that ends the cycle (R172): on a match the shadow is updated; on a mismatch STATUS is no error
and any other register is `VerificationFailed`. -/
def verify (r : RegId) (v got : Byte) (s : State) : Res Unit :=
  if got = v then done () (s.setShadow r v)
  else if r = .status then done () s
  else raise (.verificationFailed r v got) .control s

/-- WRITE_REGISTER of a known register: WREG exchange, RREG exchange, comparison (R172). -/
def writeRegister (r : RegId) (v : Byte) (s : State) : Res Unit :=
  (memWrite .control (s.cfg.regMap.addr r) v s).andThen fun _ s =>
    (readRegister r s).andThen fun got s => verify r v got s

/-- READ_REGISTER (R170). -/
def opReadRegister (r : Ident) (s : State) : Host.Outcome State Fault Refusal :=
  accept s.acq.resting (respond (((regOperand r s).andThen readRegister).mapValue .byte))

/-- WRITE_REGISTER (R172). -/
def opWriteRegister (r : Ident) (v : Byte) (s : State) : Host.Outcome State Fault Refusal :=
  accept s.acq.resting
    (respond (((regOperand r s).andThen fun reg s => writeRegister reg v s).mapValue fun _ => .unit))

/-- DEVICE_CONFIG: the read port of the shadows (R23). -/
def opDeviceConfig (s : State) : Host.Outcome State Fault Refusal := respond (done (.deviceConfig s.sh) s)

/-! ### Typed setters: encode, then write+verify -/

/-- A typed setter: the encode runs first, so an unknown name ends the operation before any exchange (R97). -/
def setter (r : RegId) (enc : State → Res Byte) (s : State) : Host.Outcome State Fault Refusal :=
  accept s.acq.resting (respond (((enc s).andThen fun v s => writeRegister r v s).mapValue fun _ => .unit))

/-- SET_INPMUX (R173). -/
def opSetInpmux (pos : Ident) (neg : Option Ident) (s : State) : Host.Outcome State Fault Refusal :=
  setter .inpmux (encInpmux pos neg) s

/-- SET_PGA (R174). -/
def opSetPga (bypass : Bool) (gain : Nat) (s : State) : Host.Outcome State Fault Refusal :=
  setter .pga (encPga bypass gain) s

/-- SET_REF (R175). -/
def opSetRef (refenb : Bool) (pos neg : Ident) (s : State) : Host.Outcome State Fault Refusal :=
  setter .ref (encRef refenb pos neg) s

/-- SET_MODE0 (R176). -/
def opSetMode0 (rate filter : Ident) (s : State) : Host.Outcome State Fault Refusal :=
  setter .mode0 (encMode0 rate filter) s

/-- SET_MODE1 (R177). -/
def opSetMode1 (chop conv delay : Ident) (s : State) : Host.Outcome State Fault Refusal :=
  setter .mode1 (encMode1 chop conv delay) s

/-- SET_MODE2 (R178): a raw byte. -/
def opSetMode2 (v : Byte) (s : State) : Host.Outcome State Fault Refusal := setter .mode2 (done v) s

/-- SET_MODE3 (R179). -/
def opSetMode3 (f : Mode3Flags) (s : State) : Host.Outcome State Fault Refusal :=
  setter .mode3 (done (mode3Byte f)) s

/-! ### Typed getters: read, then decode; no shadow is written -/

/-- A typed getter (R97): the exchange, then the decode. -/
def getter (r : RegId) (dec : Byte → State → Res Value) (s : State) : Host.Outcome State Fault Refusal :=
  accept s.acq.resting (respond ((readRegister r s).andThen dec))

/-- CHECK_INPMUX (R180). -/
def opCheckInpmux (s : State) : Host.Outcome State Fault Refusal := getter .inpmux decInpmux s

/-- CHECK_PGA (R181). -/
def opCheckPga (s : State) : Host.Outcome State Fault Refusal := getter .pga decPga s

/-- CHECK_REF (R182). -/
def opCheckRef (s : State) : Host.Outcome State Fault Refusal := getter .ref decRef s

/-- CHECK_MODE0 (R183). -/
def opCheckMode0 (s : State) : Host.Outcome State Fault Refusal := getter .mode0 decMode0 s

/-- CHECK_MODE1 (R184). -/
def opCheckMode1 (s : State) : Host.Outcome State Fault Refusal := getter .mode1 decMode1 s

/-- CHECK_MODE2 (R185): a raw byte. -/
def opCheckMode2 (s : State) : Host.Outcome State Fault Refusal :=
  getter .mode2 (fun v s => done (.byte v) s) s

/-- CHECK_MODE3 (R186). -/
def opCheckMode3 (s : State) : Host.Outcome State Fault Refusal :=
  getter .mode3 (fun v s => done (.mode3 (mode3Flags v)) s) s

/-- CHECK_STATUS (R187). -/
def opCheckStatus (s : State) : Host.Outcome State Fault Refusal :=
  getter .status (fun v s => done (.status (statusFlags v)) s) s

/-- CHECK_ID (R188): a raw byte, compared with nothing. -/
def opCheckId (s : State) : Host.Outcome State Fault Refusal :=
  getter .id (fun v s => done (.byte v) s) s

/-! ### The wire commands -/

/-- RREG: the read of the register at the address (R52, R170). -/
def execRreg (a : Addr) (s : State) : Host.Outcome State Fault Refusal :=
  accept s.acq.resting (respond (((addrOperand a s).andThen readRegister).mapValue .byte))

/-- WREG: the block sends it only as the first exchange of the write+verify cycle (R53, R60, R172). -/
def execWreg (a : Addr) (v : Byte) (s : State) : Host.Outcome State Fault Refusal :=
  accept s.acq.resting
    (respond (((addrOperand a s).andThen fun r s => writeRegister r v s).mapValue fun _ => .unit))

end Sys2Proof.Machine
end

