-- ==== Sys2Proof/Machine/Dispatch.lean ====
section
/-!
DEFINITION. The meaning of each wire command: the operation of the block that sends it (log entry 6).
-/

namespace Sys2Proof.Machine

def exec (i : Instr) (s : State) : Host.Outcome State Fault Refusal :=
  match i with
  | .nop => Sys2Proof.Machine.execNop s
  | .reset => Sys2Proof.Machine.execReset s
  | .start => Sys2Proof.Machine.execStart s
  | .stop => Sys2Proof.Machine.execStop s
  | .rdata => Sys2Proof.Machine.execRdata s
  | .syocal => Sys2Proof.Machine.execSyocal s
  | .gancal => Sys2Proof.Machine.execGancal s
  | .sfocal => Sys2Proof.Machine.execSfocal s
  | .rreg a => Sys2Proof.Machine.execRreg a s
  | .wreg a v => Sys2Proof.Machine.execWreg a v s
  | .lock => Sys2Proof.Machine.execLock s
  | .unlock => Sys2Proof.Machine.execUnlock s

end Sys2Proof.Machine
end

