-- ==== Sys2Proof/Machine/HostPort.lean ====
section
/-!
DEFINITION. The host port (R7): the operation a request names, and what serving a request does.
-/

namespace Sys2Proof.Machine

/-- The host operations of R4, each by the meaning its rule gives it. -/
def execOp (o : HostOp) (s : State) : Host.Outcome State Fault Refusal :=
  match o with
  | .buildRreg r => opBuildRreg r s
  | .buildWreg r v => opBuildWreg r v s
  | .buildStart => opBuildStart s
  | .buildStop => opBuildStop s
  | .buildReset => opBuildReset s
  | .buildRdata => opBuildRdata s
  | .buildSyocal => opBuildSyocal s
  | .buildSfocal => opBuildSfocal s
  | .parseRreg rx => opParseRreg rx s
  | .parseRdata rx statenb crcenb => opParseRdata rx statenb crcenb s
  | .encInpmux pos neg => opEncInpmux pos neg s
  | .decInpmux v => opDecInpmux v s
  | .encPga bypass gain => opEncPga bypass gain s
  | .decPga v => opDecPga v s
  | .encMode0 rate filter => opEncMode0 rate filter s
  | .decMode0 v => opDecMode0 v s
  | .encMode1 chop conv delay => opEncMode1 chop conv delay s
  | .decMode1 v => opDecMode1 v s
  | .encRef refenb pos neg => opEncRef refenb pos neg s
  | .decRef v => opDecRef v s
  | .encMode3 f => opEncMode3 f s
  | .decMode3 v => opDecMode3 v s
  | .decStatus v => opDecStatus v s
  | .raw24ToMv b0 b1 b2 referenceMv gain => opRaw24ToMv b0 b1 b2 referenceMv gain s
  | .deviceConfig => opDeviceConfig s
  | .readRegister r => opReadRegister r s
  | .writeRegister r v => opWriteRegister r v s
  | .setInpmux pos neg => opSetInpmux pos neg s
  | .setPga bypass gain => opSetPga bypass gain s
  | .setRef refenb pos neg => opSetRef refenb pos neg s
  | .setMode0 rate filter => opSetMode0 rate filter s
  | .setMode1 chop conv delay => opSetMode1 chop conv delay s
  | .setMode2 v => opSetMode2 v s
  | .setMode3 f => opSetMode3 f s
  | .checkInpmux => opCheckInpmux s
  | .checkPga => opCheckPga s
  | .checkRef => opCheckRef s
  | .checkMode0 => opCheckMode0 s
  | .checkMode1 => opCheckMode1 s
  | .checkMode2 => opCheckMode2 s
  | .checkMode3 => opCheckMode3 s
  | .checkStatus => opCheckStatus s
  | .checkId => opCheckId s
  | .arm => opArm s
  | .enterWait => opEnterWait s
  | .waitPolled => opWaitPolled s
  | .waitSignal => opWaitSignal s
  | .readData => opReadData s
  | .finish status raw referenceMv gain => opFinish status raw referenceMv gain s
  | .collectMeasurement mode referenceMv gain => opCollectMeasurement mode referenceMv gain s
  | .stop => opStop s
  | .calibrateSelf => opCalibrateSelf s
  | .calibrateSystem => opCalibrateSystem s
  | .resetPulse => opResetPulse s

/-- A wire command given by its frame: recognised byte for byte (R81, R89), then its meaning. -/
def serveFrame (f : List Byte) (s : State) : Host.Outcome State Fault Refusal :=
  match recognise s.cfg f with
  | some i => exec i s
  | none => .refused .notACommandFrame

/-- The block's reset after `n` events of an operation (U24). An operation the block has no step for issues
nothing, and the reset takes effect as from any state (R280). -/
def serveResetDuring (o : HostOp) (n : Nat) (s : State) : Host.Outcome State Fault Refusal :=
  match execOp o s with
  | .next t => .next (s.abandon t n)
  | .fault _ => .next s.blockReset
  | .refused _ => .next s.blockReset

/-- Serve one request of the host. -/
def serve (r : Request) (s : State) : Host.Outcome State Fault Refusal :=
  match r with
  | .op o => execOp o s
  | .frame f => serveFrame f s
  | .blockReset => .next s.blockReset
  | .blockResetDuring o n => serveResetDuring o n s

end Sys2Proof.Machine
end

