-- ==== Sys2Proof/Machine/Step.lean ====
section
/-!
DEFINITION. One step of the block: the host's next request is taken and served to its response; with no request
the block waits (R280). A configuration that is not legal is refused (U14, U15).
-/

namespace Sys2Proof.Machine

/-- One step. -/
def step (s : State) : Host.Outcome State Fault Refusal :=
  if s.cfg.legal then
    match s.inbox with
    | [] => .next s
    | r :: rest => serve r { s with inbox := rest }
  else .refused .illegalConfiguration

/-- The state with the frame of an instruction word of `nbits` bits as the host's next request: the bytes of the word as
given, and those past `nbits` completed to the frame (log entries 5 and 31). -/
def State.withFetchWord (s : State) (nbits w : Nat) : State :=
  { s with inbox := .frame (completeFrame s.cfg (wordBytes ((nbits + 7) / 8) nbits w)) :: s.inbox }

end Sys2Proof.Machine
end

