-- ==== Sys2Proof/Safety.lean ====
section
/-!
DEFINITION. What counts as a safe run, in the terms claims use: the invariant of the state, which `ACQ` state a
request accepts and which it may leave (R171, R224 and every `require` of 44_acquisition.md), which requests may
write the shadows, and where an operation's operands lie in their types.
-/

namespace Sys2Proof.Machine

/-- The invariant of the state: the configuration is legal (U14, U15), `POLLS` never exceeds the budget (R25), the
reset line is at rest between operations and the two lines no operation drives keep their level (R20, R267). -/
abbrev State.inv (s : State) : Prop :=
  s.cfg.legal = true ∧ s.polls ≤ s.cfg.retryBudget ∧ s.resetN = true ∧ s.pwdnHold = true ∧ s.startPin = false

/-- The `require` of each operation, over `ACQ` and, for READ_DATA, whether a wait has returned `Ok` (R171, R210 to
R223); an operation with none is accepted in every state (R265). -/
def HostOp.accepts (o : HostOp) (a : Acq) (waitDone : Bool) : Bool :=
  match o with
  | .buildRreg _ => true
  | .buildWreg _ _ => true
  | .buildStart => true
  | .buildStop => true
  | .buildReset => true
  | .buildRdata => true
  | .buildSyocal => true
  | .buildSfocal => true
  | .parseRreg _ => true
  | .parseRdata _ _ _ => true
  | .encInpmux _ _ => true
  | .decInpmux _ => true
  | .encPga _ _ => true
  | .decPga _ => true
  | .encMode0 _ _ => true
  | .decMode0 _ => true
  | .encMode1 _ _ _ => true
  | .decMode1 _ => true
  | .encRef _ _ _ => true
  | .decRef _ => true
  | .encMode3 _ => true
  | .decMode3 _ => true
  | .decStatus _ => true
  | .raw24ToMv _ _ _ _ _ => true
  | .deviceConfig => true
  | .readRegister _ => a.resting
  | .writeRegister _ _ => a.resting
  | .setInpmux _ _ => a.resting
  | .setPga _ _ => a.resting
  | .setRef _ _ _ => a.resting
  | .setMode0 _ _ => a.resting
  | .setMode1 _ _ _ => a.resting
  | .setMode2 _ => a.resting
  | .setMode3 _ => a.resting
  | .checkInpmux => a.resting
  | .checkPga => a.resting
  | .checkRef => a.resting
  | .checkMode0 => a.resting
  | .checkMode1 => a.resting
  | .checkMode2 => a.resting
  | .checkMode3 => a.resting
  | .checkStatus => a.resting
  | .checkId => a.resting
  | .arm => a.resting
  | .enterWait => decide (a = .armed)
  | .waitPolled => decide (a = .armed)
  | .waitSignal => decide (a = .armed)
  | .readData => waitReturned a waitDone
  | .finish _ _ _ _ => decide (a = .dataAvailable)
  | .collectMeasurement _ _ _ => a.resting
  | .stop => a.resting
  | .calibrateSelf => a.resting
  | .calibrateSystem => a.resting
  | .resetPulse => a.resting

/-- The operands lie in their types: a parser's array is long enough (R108, R109), a reference has `REF_W` bits
(U21). Names and gains are always in their types (R131). -/
def HostOp.inType (o : HostOp) (c : Config) : Bool :=
  match o with
  | .parseRreg rx => decide (3 ≤ rx.length)
  | .parseRdata rx statenb crcenb => decide (sampleOffset c statenb crcenb + 3 ≤ rx.length)
  | .raw24ToMv _ _ _ referenceMv _ => referenceInRange c referenceMv
  | .finish _ _ referenceMv _ => referenceInRange c referenceMv
  | .collectMeasurement _ referenceMv _ => referenceInRange c referenceMv
  | _ => true

/-- The operation answers with the response `r` and changes nothing else. -/
def HostOp.answers (o : HostOp) (s : State) (r : Response) : Prop :=
  execOp o s = .next { s with response := some r }

/-- An encoder and the typed setter built on it both answer `UnknownIdentifier(u)` and change nothing else: no
exchange is made. The setter does so where it is accepted (R171, R252). -/
def rejectsOption (s : State) (enc set : HostOp) (u : Unknown) : Prop :=
  enc.answers s (.err (.unknownIdentifier u)) ∧
    (s.acq.resting = true → set.answers s (.err (.unknownIdentifier u)))

/-- The operation writes a shadow when it succeeds (R20: "rule R172 only"): the register it writes. -/
def HostOp.writes (o : HostOp) : Option RegId :=
  match o with
  | .writeRegister r _ => RegId.ofName r
  | .setInpmux _ _ => some .inpmux
  | .setPga _ _ => some .pga
  | .setRef _ _ _ => some .ref
  | .setMode0 _ _ => some .mode0
  | .setMode1 _ _ _ => some .mode1
  | .setMode2 _ => some .mode2
  | .setMode3 _ => some .mode3
  | _ => none

/-- A confirmed write of `v` to `r` is committed in `t`: `SH[r] <- v` and `SHV[r] <- 1` for the seven registers that have
a shadow, nothing for another (R20, R172 corner case f), and the layout follows MODE3 at once (R29, R179). -/
def committed (s t : State) (r : RegId) (v : Byte) : Prop :=
  (r = .mode0 → t.sh = { s.sh with mode0 := some v }) ∧ (r = .mode1 → t.sh = { s.sh with mode1 := some v }) ∧
    (r = .mode2 → t.sh = { s.sh with mode2 := some v }) ∧ (r = .mode3 → t.sh = { s.sh with mode3 := some v }) ∧
    (r = .ref → t.sh = { s.sh with ref := some v }) ∧ (r = .pga → t.sh = { s.sh with pga := some v }) ∧
    (r = .inpmux → t.sh = { s.sh with inpmux := some v }) ∧
    (shadowed r = true → t.sh.get r = some v) ∧
    (r ∉ [.mode0, .mode1, .mode2, .mode3, .ref, .pga, .inpmux] → t.sh = s.sh) ∧
    (r = .mode3 → t.layout = (v.getLsbD 6, v.getLsbD 5))

/-- The operations an exchange failure of which puts `ACQ` in Fault (R262). -/
def HostOp.acquires (o : HostOp) : Bool :=
  match o with
  | .arm => true
  | .waitPolled => true
  | .readData => true
  | .collectMeasurement _ _ _ => true
  | _ => false

/-- The states `ACQ` may hold after an operation accepted in `a` (R224, R262). -/
def HostOp.successors (o : HostOp) (a : Acq) : List Acq :=
  match o with
  | .arm => [.armed, .fault]
  | .enterWait => [.waitingForData]
  | .waitPolled => [.waitingForData, .fault]
  | .waitSignal => [.waitingForData, .fault]
  | .readData => [.dataAvailable, .fault]
  | .finish _ _ _ _ => [.idle, .fault, .dataAvailable]
  | .collectMeasurement _ _ _ => [.idle, .fault, a]
  | .resetPulse => [.idle]
  | _ => [a]

/-- The same for a wire command (log entry 6). -/
def instrSuccessors (i : Instr) (a : Acq) : List Acq :=
  match i with
  | .nop => [a]
  | .reset => [a]
  | .start => [.armed, .fault]
  | .stop => [a]
  | .rdata => [.dataAvailable, .fault]
  | .syocal => [a]
  | .gancal => [a]
  | .sfocal => [a]
  | .rreg _ => [a]
  | .wreg _ _ => [a]
  | .lock => [a]
  | .unlock => [a]

/-- The same for a request; after the block's reset `ACQ` is Idle (R224 last row). -/
def Request.successors (r : Request) (c : Config) (a : Acq) : List Acq :=
  match r with
  | .op o => o.successors a
  | .frame f => match recognise c f with
    | some i => instrSuccessors i a
    | none => []
  | .blockReset => [.idle]
  | .blockResetDuring _ _ => [.idle]

/-- The wire commands the block transmits (opcode_table.json "emitted_by_block"; R85: NOP, RESET, GANCAL, LOCK and
UNLOCK are not). -/
def instrEmitted (i : Instr) : Bool :=
  match i with
  | .start => true
  | .stop => true
  | .rdata => true
  | .syocal => true
  | .sfocal => true
  | .rreg _ => true
  | .wreg _ _ => true
  | .nop => false
  | .reset => false
  | .gancal => false
  | .lock => false
  | .unlock => false

/-- The pure functions of R4 and the read port DEVICE_CONFIG: no transport, no line, no state written. -/
def HostOp.pure (o : HostOp) : Bool :=
  match o with
  | .buildRreg _ => true
  | .buildWreg _ _ => true
  | .buildStart => true
  | .buildStop => true
  | .buildReset => true
  | .buildRdata => true
  | .buildSyocal => true
  | .buildSfocal => true
  | .parseRreg _ => true
  | .parseRdata _ _ _ => true
  | .encInpmux _ _ => true
  | .decInpmux _ => true
  | .encPga _ _ => true
  | .decPga _ => true
  | .encMode0 _ _ => true
  | .decMode0 _ => true
  | .encMode1 _ _ _ => true
  | .decMode1 _ => true
  | .encRef _ _ _ => true
  | .decRef _ => true
  | .encMode3 _ => true
  | .decMode3 _ => true
  | .decStatus _ => true
  | .raw24ToMv _ _ _ _ _ => true
  | .deviceConfig => true
  | _ => false

/-- The operations that write `POLLS` (R20: rules R211, R212 and R213, and the composite R216), and with it the
record of whether a wait has returned. -/
def HostOp.waits (o : HostOp) : Bool :=
  match o with
  | .enterWait => true
  | .waitPolled => true
  | .waitSignal => true
  | .collectMeasurement _ _ _ => true
  | _ => false

/-- The frames sent in a list of events, in order. -/
def sentFrames (es : List Event) : List (List Byte) :=
  es.filterMap fun e => match e with
    | .xchg tx _ => some tx
    | .sampleDrdy _ => none
    | .drive _ _ => none
    | .delay _ => none

/-- The events a step or an operation from `s` to `t` added to the history. -/
def newEvents (s t : State) : List Event := t.history.drop s.history.length

end Sys2Proof.Machine
end

