-- ==== Sys2Proof/Certificates/Slice0/Obligations.lean ====
section
/-!
DEFINITION. The statements for the provers, each from a numbered rule of spec/. `s.answer n` is the environment's
answer to the next exchange of `n` bytes, `s.afterXchg tx` the state after that exchange (replies, tick and
history moved on, no register changed), `newEvents s t` the events added between two states.
-/

open Sys2Proof Sys2Proof.Machine

/-! ### Frames and the classifier -/

/-- R81, R79: with the fixed opcodes of R8 at their values, and the five parameter opcodes in no other class,
classifying the frame of a wire command gives the command back, with every address and every value (NOP, GANCAL, LOCK
and UNLOCK by their opcode byte: the model's choice, log entry 10); and the frame is recognised byte for byte (R89). -/
def Obligations.DecodeOfEncodeGivesTheCommand : Prop :=
  ∀ (c : Config) (i : Instr), c.fixedLegal = true → c.opcodesDisjoint = true →
    decode c (encode c i) = some i ∧ recognise c (encode c i) = some i

/-- R111: a register frame names its register, carries its value in byte 1, and two different commands never have
the same frame (the latter where the parameter opcodes are disjoint, R81; R111 speaks of built frames, and NOP, GANCAL,
LOCK and UNLOCK count by their opcode byte alone, the model's choice, log entry 10). -/
def Obligations.FramesNameTheirCommand : Prop :=
  ∀ c : Config, c.legal = true →
    (∀ (r : RegId) (v : Byte),
      decode c (frameRR c (c.regMap.addr r)) = some (.rreg (c.regMap.addr r)) ∧
      decode c (frameWR c (c.regMap.addr r) v) = some (.wreg (c.regMap.addr r) v) ∧
      (frameWR c (c.regMap.addr r) v)[1]? = some v ∧
      c.regMap.regAt (c.regMap.addr r) = some r) ∧
    (c.opcodesDisjoint = true → ∀ i j : Instr, encode c i = encode c j → i = j)

/-- Words written out from spec/opcode_table.json, one per row, decode to the row's command. -/
def Obligations.WordsOfTheTableDecode : Prop :=
  decodeTableWord 8 0x00 = some .nop ∧
  decodeTableWord 24 0x001006 = some .reset ∧
  decodeTableWord 24 0x001008 = some .start ∧
  decodeTableWord 24 0x00100A = some .stop ∧
  decodeTableWord 72 0x12 = some .rdata ∧
  decodeTableWord 16 0x1016 = some .syocal ∧
  decodeTableWord 8 0x17 = some .gancal ∧
  decodeTableWord 16 0x1019 = some .sfocal ∧
  decodeTableWord 24 0x001031 = some (.rreg 0x11) ∧
  decodeTableWord 40 0x0750 = some (.wreg 0x10 0x07) ∧
  decodeTableWord 8 0xF2 = some .lock ∧
  decodeTableWord 8 0xF5 = some .unlock ∧
  decodeTableWord 8 0x60 = none

/-! ### Builders and parsers -/

/-- R102, R103, R105, and R106, R110 (the spec's decision D5): in a legal configuration the constant builders return
the frames the spec prints and change nothing. -/
def Obligations.ConstantBuildersReturnTheirFrames : Prop :=
  ∀ s : State, s.cfg.legal = true →
    execOp .buildStart s = .next { s with response := some (.ok (.frame [0x08, 0x10, 0x00])) } ∧
    execOp .buildStop s = .next { s with response := some (.ok (.frame [0x0A, 0x10, 0x00])) } ∧
    execOp .buildRdata s = .next { s with
      response := some (.ok (.frame [0x12, 0x00, 0x00, 0x00, 0x00, 0x00, 0x00, 0x00, 0x00])) } ∧
    execOp .buildSyocal s = .next { s with response := some (.ok (.frame [0x16, 0x10])) } ∧
    execOp .buildSfocal s = .next { s with response := some (.ok (.frame [0x19, 0x10])) }

/-- R100, R101, R252: the register builders return the frame of a register's address; a name outside `RegId` is
`UnknownIdentifier` and nothing else changes. -/
def Obligations.RegisterBuildersReturnTheirFrames : Prop :=
  ∀ (s : State) (v : Byte), s.cfg.legal = true →
    (∀ (r : RegId) (f g : List Byte),
      f = [0x20 + (s.cfg.regMap.addr r).setWidth 8, 0x10] ++ List.replicate s.cfg.nDummy 0x00 →
      g = [0x40 + (s.cfg.regMap.addr r).setWidth 8, v, 0x00, 0x00, 0x00] →
      execOp (.buildRreg r.name) s = .next { s with response := some (.ok (.frame f)) } ∧
      execOp (.buildWreg r.name v) s = .next { s with response := some (.ok (.frame g)) }) ∧
    (∀ n : Ident, RegId.ofName n = none →
      execOp (.buildRreg n) s = .next { s with response := some (.err (.unknownIdentifier (.name n))) } ∧
      execOp (.buildWreg n v) s = .next { s with response := some (.err (.unknownIdentifier (.name n))) })

/-- R104 (and log entry 7, the model's choice for the wire mnemonic): RESET is built, [OP_RESET, 0x10, 0x00], and
nothing is transmitted or changed. -/
def Obligations.ResetOnlyBuildsItsFrame : Prop :=
  ∀ s : State,
    exec .reset s = .next { s with response := some (.ok (.frame [s.cfg.opReset, 0x10, 0x00])) } ∧
    execOp .buildReset s = .next { s with response := some (.ok (.frame [s.cfg.opReset, 0x10, 0x00])) }

/-- R107: a request for NOP, GANCAL, LOCK or UNLOCK is refused. -/
def Obligations.MnemonicsWithoutBuilderAreRefused : Prop :=
  ∀ s : State,
    exec .nop s = .refused (.noBuilder .nop) ∧ exec .gancal s = .refused (.noBuilder .gancal) ∧
    exec .lock s = .refused (.noBuilder .lock) ∧ exec .unlock s = .refused (.noBuilder .unlock)

/-- R108: the value of an RREG reply is `rx[2]`, whatever the other bytes are; a shorter array is refused. -/
def Obligations.ParseRregTakesByteTwo : Prop :=
  ∀ (s : State) (rx : List Byte),
    (rx.length < 3 → execOp (.parseRreg rx) s = .refused .arrayTooShort) ∧
    (∀ v : Byte, rx[2]? = some v →
      execOp (.parseRreg rx) s = .next { s with response := some (.ok (.byte v)) })

/-- R109: the sample of an RDATA reply lies big-endian at the layout's offset, the status byte before it when
STATENB is 1; an array too short is refused. -/
def Obligations.ParseRdataTakesTheLayoutsBytes : Prop :=
  ∀ (s : State) (rx : List Byte) (statenb crcenb : Bool) (o : Nat),
    o = (if crcenb then (if statenb then s.cfg.offBoth else s.cfg.offCrcOnly) else (if statenb then 3 else 2)) →
    (rx.length < o + 3 → execOp (.parseRdata rx statenb crcenb) s = .refused .arrayTooShort) ∧
    (∀ x y z : Byte, rx[o]? = some x → rx[o + 1]? = some y → rx[o + 2]? = some z →
      ∃ (raw : Sample) (status : Option Byte), raw.toNat = x.toNat * 65536 + y.toNat * 256 + z.toNat ∧
        status = (if statenb then rx[o - 1]? else none) ∧
        execOp (.parseRdata rx statenb crcenb) s = .next { s with response := some (.ok (.sample status raw)) })

/-! ### Field codecs -/

/-- R155, R130: decoding an encoded option list gives the options back, for every codec pair and every operand
the encoder accepts. -/
def Obligations.DecodeOfEncodedFieldsGivesTheOptions : Prop :=
  ∀ s : State, s.cfg.legal = true →
    (∀ (pos : Ident) (neg : Option Ident) (v : Byte), encInpmux pos neg s = (.ok v, s) →
      decInpmux v s = (.ok (.inputPair pos (neg.getD "AINCOM")), s)) ∧
    (∀ (b : Bool) (g : Nat) (v : Byte), encPga b g s = (.ok v, s) → decPga v s = (.ok (.pga b g), s)) ∧
    (∀ (rate filter : Ident) (v : Byte), encMode0 rate filter s = (.ok v, s) →
      decMode0 v s = (.ok (.mode0 rate filter), s)) ∧
    (∀ (chop conv delay : Ident) (v : Byte), encMode1 chop conv delay s = (.ok v, s) →
      decMode1 v s = (.ok (.mode1 chop conv delay), s)) ∧
    (∀ (e : Bool) (pos neg : Ident) (v : Byte), encRef e pos neg s = (.ok v, s) →
      decRef v s = (.ok (.reference e pos neg), s)) ∧
    (∀ f : Mode3Flags, mode3Flags (mode3Byte f) = f)

/-- R155, the converse: a byte that decodes is encoded back to itself where its undescribed bits are zero
(R88), and a byte such as PGA 0x7F is not. -/
def Obligations.EncodeOfDecodedByteGivesTheByte : Prop :=
  ∀ s : State, s.cfg.legal = true →
    (∀ (v : Byte) (p n : Ident), decInpmux v s = (.ok (.inputPair p n), s) →
      encInpmux p (some n) s = (.ok v, s)) ∧
    (∀ (v : Byte) (b : Bool) (g : Nat), decPga v s = (.ok (.pga b g), s) → v.extractLsb' 3 4 = 0#4 →
      encPga b g s = (.ok v, s)) ∧
    (∀ (v : Byte) (a b : Ident), decMode0 v s = (.ok (.mode0 a b), s) → encMode0 a b s = (.ok v, s)) ∧
    (∀ (v : Byte) (a b d : Ident), decMode1 v s = (.ok (.mode1 a b d), s) → v.getLsbD 7 = false →
      encMode1 a b d s = (.ok v, s)) ∧
    (∀ (v : Byte) (e : Bool) (p n : Ident), decRef v s = (.ok (.reference e p n), s) → v.extractLsb' 5 3 = 0#3 →
      encRef e p n s = (.ok v, s)) ∧
    (∀ v : Byte, mode3Byte (mode3Flags v) = v) ∧
    (∀ (b : Bool) (g : Nat), decPga 0x7F s = (.ok (.pga b g), s) → encPga b g s ≠ (.ok 0x7F, s))

/-- R77: the byte each `ENC_*` function assembles from the codes of its options, in order, and only from them (gain
`2 ^ k` has code `k`); the byte of the eight MODE3 flags; and the value operand of WREG, taken as given. -/
def Obligations.RegisterBytesPlaceTheirFields : Prop :=
  ∀ (s : State) (v : Byte),
    (∀ (pos : Ident) (neg : Option Ident), encInpmux pos neg s = (.ok v, s) ↔
      ∃ p n : BitVec 4, Table.enc s.cfg.pinTable pos = some p ∧ Table.enc s.cfg.pinTable (neg.getD "AINCOM") = some n ∧
        v.toNat = 16 * p.toNat + n.toNat) ∧
    (∀ (b : Bool) (g : Nat), encPga b g s = (.ok v, s) ↔
      ∃ k : Nat, k < 8 ∧ g = 2 ^ k ∧ v.toNat = 128 * b.toNat + k) ∧
    (∀ (e : Bool) (pos neg : Ident), encRef e pos neg s = (.ok v, s) ↔
      ∃ p n : BitVec 2, Table.enc s.cfg.refPTable pos = some p ∧ Table.enc s.cfg.refNTable neg = some n ∧
        v.toNat = 16 * e.toNat + 4 * p.toNat + n.toNat) ∧
    (∀ rate filter : Ident, encMode0 rate filter s = (.ok v, s) ↔
      ∃ (d : BitVec 5) (f : BitVec 3), Table.enc s.cfg.rateTable rate = some d ∧
        Table.enc s.cfg.filterTable filter = some f ∧ v.toNat = 8 * d.toNat + f.toNat) ∧
    (∀ chop conv delay : Ident, encMode1 chop conv delay s = (.ok v, s) ↔
      ∃ (c : BitVec 2) (r : BitVec 1) (d : BitVec 4), Table.enc s.cfg.chopTable chop = some c ∧
        Table.enc s.cfg.convTable conv = some r ∧ Table.enc s.cfg.delayTable delay = some d ∧
        v.toNat = 32 * c.toNat + 16 * r.toNat + d.toNat) ∧
    (∀ f : Mode3Flags, (mode3Byte f).toNat =
      128 * f.pwdn.toNat + 64 * f.statenb.toNat + 32 * f.crcenb.toNat + 16 * f.spitim.toNat +
        8 * f.gpio3.toNat + 4 * f.gpio2.toNat + 2 * f.gpio1.toNat + f.gpio0.toNat) ∧
    (∀ a : Addr, (frameWR s.cfg a v)[1]? = some v)

/-- R87, R130: a `DEC_*` function raises `UnknownIdentifier` at any field value its table maps to no name, and succeeds
where every field is mapped, whatever the tables; the first unmapped field is the one named, from the most significant
down (R142 and R145; R261 says that this order is the spec's own), by its bit pattern (R252; the payload is log entry
23). With the default tables (log entry 2) exactly MODE1 DELAY 14 and 15, MODE0 FILTER 5 to 7 and MODE0 DR 17 to 31
are unmapped. -/
def Obligations.UnmappedPatternsRaiseUnknownIdentifier : Prop :=
  ∀ (s : State) (v : Byte),
    (∀ hi lo : BitVec 4, hi = v.extractLsb' 4 4 → lo = v.extractLsb' 0 4 →
      (Table.dec s.cfg.pinTable hi = none →
        decInpmux v s = (.error (.unknownIdentifier (.pattern 4 hi.toNat)), s)) ∧
      (∀ p, Table.dec s.cfg.pinTable hi = some p → Table.dec s.cfg.pinTable lo = none →
        decInpmux v s = (.error (.unknownIdentifier (.pattern 4 lo.toNat)), s)) ∧
      (∀ p n, Table.dec s.cfg.pinTable hi = some p → Table.dec s.cfg.pinTable lo = some n →
        decInpmux v s = (.ok (.inputPair p n), s))) ∧
    (∀ hi lo : BitVec 2, hi = v.extractLsb' 2 2 → lo = v.extractLsb' 0 2 →
      (Table.dec s.cfg.refPTable hi = none →
        decRef v s = (.error (.unknownIdentifier (.pattern 2 hi.toNat)), s)) ∧
      (∀ p, Table.dec s.cfg.refPTable hi = some p → Table.dec s.cfg.refNTable lo = none →
        decRef v s = (.error (.unknownIdentifier (.pattern 2 lo.toNat)), s)) ∧
      (∀ p n, Table.dec s.cfg.refPTable hi = some p → Table.dec s.cfg.refNTable lo = some n →
        decRef v s = (.ok (.reference (v.getLsbD 4) p n), s))) ∧
    (∀ (dr : BitVec 5) (fl : BitVec 3), dr = v.extractLsb' 3 5 → fl = v.extractLsb' 0 3 →
      (Table.dec s.cfg.rateTable dr = none →
        decMode0 v s = (.error (.unknownIdentifier (.pattern 5 dr.toNat)), s)) ∧
      (∀ a, Table.dec s.cfg.rateTable dr = some a → Table.dec s.cfg.filterTable fl = none →
        decMode0 v s = (.error (.unknownIdentifier (.pattern 3 fl.toNat)), s)) ∧
      (∀ a b, Table.dec s.cfg.rateTable dr = some a → Table.dec s.cfg.filterTable fl = some b →
        decMode0 v s = (.ok (.mode0 a b), s))) ∧
    (∀ (ch : BitVec 2) (cv : BitVec 1) (dl : BitVec 4),
      ch = v.extractLsb' 5 2 → cv = v.extractLsb' 4 1 → dl = v.extractLsb' 0 4 →
      (Table.dec s.cfg.chopTable ch = none →
        decMode1 v s = (.error (.unknownIdentifier (.pattern 2 ch.toNat)), s)) ∧
      (∀ a, Table.dec s.cfg.chopTable ch = some a → Table.dec s.cfg.convTable cv = none →
        decMode1 v s = (.error (.unknownIdentifier (.pattern 1 cv.toNat)), s)) ∧
      (∀ a b, Table.dec s.cfg.chopTable ch = some a → Table.dec s.cfg.convTable cv = some b →
        Table.dec s.cfg.delayTable dl = none →
        decMode1 v s = (.error (.unknownIdentifier (.pattern 4 dl.toNat)), s)) ∧
      (∀ a b d, Table.dec s.cfg.chopTable ch = some a → Table.dec s.cfg.convTable cv = some b →
        Table.dec s.cfg.delayTable dl = some d → decMode1 v s = (.ok (.mode1 a b d), s))) ∧
    (∃ b g, decPga v s = (.ok (.pga b g), s)) ∧
    (s.cfg = Config.default →
      (17 ≤ (v.extractLsb' 3 5).toNat →
        decMode0 v s = (.error (.unknownIdentifier (.pattern 5 (v.extractLsb' 3 5).toNat)), s)) ∧
      ((v.extractLsb' 3 5).toNat < 17 → 5 ≤ (v.extractLsb' 0 3).toNat →
        decMode0 v s = (.error (.unknownIdentifier (.pattern 3 (v.extractLsb' 0 3).toNat)), s)) ∧
      ((v.extractLsb' 3 5).toNat < 17 → (v.extractLsb' 0 3).toNat < 5 →
        ∃ a b, decMode0 v s = (.ok (.mode0 a b), s)) ∧
      (14 ≤ (v.extractLsb' 0 4).toNat →
        decMode1 v s = (.error (.unknownIdentifier (.pattern 4 (v.extractLsb' 0 4).toNat)), s)) ∧
      ((v.extractLsb' 0 4).toNat < 14 → ∃ a b d, decMode1 v s = (.ok (.mode1 a b d), s)) ∧
      (∃ p n, decInpmux v s = (.ok (.inputPair p n), s)) ∧
      (∃ e p n, decRef v s = (.ok (.reference e p n), s)))

/-! ### Register access -/

/-- R252, R261, R112: an encoder, and the typed setter built on it, tests its options left to right and ends at the
first unknown one, before any exchange: only the response changes. The third clause, an omitted negative pin where
AINCOM is in no row, speaks of configurations that are legal by the model's choice (log entry 30). -/
def Obligations.UnknownOptionEndsASetterBeforeAnyExchange : Prop :=
  ∀ s : State,
    (∀ (pos : Ident) (neg : Option Ident), Table.enc s.cfg.pinTable pos = none →
      rejectsOption s (.encInpmux pos neg) (.setInpmux pos neg) (.name pos)) ∧
    (∀ (pos neg : Ident) (p : BitVec 4), Table.enc s.cfg.pinTable pos = some p →
      Table.enc s.cfg.pinTable neg = none →
      rejectsOption s (.encInpmux pos (some neg)) (.setInpmux pos (some neg)) (.name neg)) ∧
    (∀ (pos : Ident) (p : BitVec 4), Table.enc s.cfg.pinTable pos = some p →
      Table.enc s.cfg.pinTable "AINCOM" = none →
      rejectsOption s (.encInpmux pos none) (.setInpmux pos none) (.name "AINCOM")) ∧
    (∀ (b : Bool) (g : Nat), g ∉ [1, 2, 4, 8, 16, 32, 64, 128] →
      rejectsOption s (.encPga b g) (.setPga b g) (.number g)) ∧
    (∀ (e : Bool) (pos neg : Ident), Table.enc s.cfg.refPTable pos = none →
      rejectsOption s (.encRef e pos neg) (.setRef e pos neg) (.name pos)) ∧
    (∀ (e : Bool) (pos neg : Ident) (p : BitVec 2), Table.enc s.cfg.refPTable pos = some p →
      Table.enc s.cfg.refNTable neg = none →
      rejectsOption s (.encRef e pos neg) (.setRef e pos neg) (.name neg)) ∧
    (∀ rate filter : Ident, Table.enc s.cfg.rateTable rate = none →
      rejectsOption s (.encMode0 rate filter) (.setMode0 rate filter) (.name rate)) ∧
    (∀ (rate filter : Ident) (d : BitVec 5), Table.enc s.cfg.rateTable rate = some d →
      Table.enc s.cfg.filterTable filter = none →
      rejectsOption s (.encMode0 rate filter) (.setMode0 rate filter) (.name filter)) ∧
    (∀ chop conv delay : Ident, Table.enc s.cfg.chopTable chop = none →
      rejectsOption s (.encMode1 chop conv delay) (.setMode1 chop conv delay) (.name chop)) ∧
    (∀ (chop conv delay : Ident) (c : BitVec 2), Table.enc s.cfg.chopTable chop = some c →
      Table.enc s.cfg.convTable conv = none →
      rejectsOption s (.encMode1 chop conv delay) (.setMode1 chop conv delay) (.name conv)) ∧
    (∀ (chop conv delay : Ident) (c : BitVec 2) (r : BitVec 1), Table.enc s.cfg.chopTable chop = some c →
      Table.enc s.cfg.convTable conv = some r → Table.enc s.cfg.delayTable delay = none →
      rejectsOption s (.encMode1 chop conv delay) (.setMode1 chop conv delay) (.name delay))

/-- R97, R173 to R179: a typed setter is its encode followed by WRITE_REGISTER of the byte. -/
def Obligations.SettersAreEncodeThenWriteRegister : Prop :=
  ∀ (s : State) (v : Byte),
    (∀ pos neg, encInpmux pos neg s = (.ok v, s) →
      execOp (.setInpmux pos neg) s = execOp (.writeRegister "INPMUX" v) s) ∧
    (∀ b g, encPga b g s = (.ok v, s) → execOp (.setPga b g) s = execOp (.writeRegister "PGA" v) s) ∧
    (∀ e pos neg, encRef e pos neg s = (.ok v, s) →
      execOp (.setRef e pos neg) s = execOp (.writeRegister "REF" v) s) ∧
    (∀ a b, encMode0 a b s = (.ok v, s) → execOp (.setMode0 a b) s = execOp (.writeRegister "MODE0" v) s) ∧
    (∀ a b d, encMode1 a b d s = (.ok v, s) →
      execOp (.setMode1 a b d) s = execOp (.writeRegister "MODE1" v) s) ∧
    execOp (.setMode2 v) s = execOp (.writeRegister "MODE2" v) s ∧
    (∀ f, execOp (.setMode3 f) s = execOp (.writeRegister "MODE3" (mode3Byte f)) s)

/-- R180 to R188: a typed getter is one RREG exchange and the decode of its value byte; no register, shadow or
`ACQ` changes. A failed exchange is `TransportFailure`, with no decode. -/
def Obligations.GettersAreReadThenDecode : Prop :=
  ∀ (s : State) (rx : List Byte) (v : Byte), s.acq.resting = true → 1 ≤ s.cfg.nDummy →
    (∀ (o : HostOp) (r : RegId),
      (o, r) ∈ [(.checkInpmux, .inpmux), (.checkPga, .pga), (.checkRef, .ref), (.checkMode0, .mode0),
        (.checkMode1, .mode1), (.checkMode2, .mode2), (.checkMode3, .mode3), (.checkStatus, .status),
        (.checkId, .id)] →
      s.answer (2 + s.cfg.nDummy) = none →
      execOp o s = .next { s.afterXchg (frameRR s.cfg (s.cfg.regMap.addr r)) with
        response := some (.err .transportFailure) }) ∧
    (s.answer (2 + s.cfg.nDummy) = some rx → rx[2]? = some v →
    execOp .checkInpmux s = .next { s.afterXchg (frameRR s.cfg s.cfg.regMap.inpmux) with
      response := some (toResponse (decInpmux v s).1) } ∧
    execOp .checkPga s = .next { s.afterXchg (frameRR s.cfg s.cfg.regMap.pga) with
      response := some (.ok (.pga (v.getLsbD 7) (2 ^ (v.extractLsb' 0 3).toNat))) } ∧
    execOp .checkRef s = .next { s.afterXchg (frameRR s.cfg s.cfg.regMap.ref) with
      response := some (toResponse (decRef v s).1) } ∧
    execOp .checkMode0 s = .next { s.afterXchg (frameRR s.cfg s.cfg.regMap.mode0) with
      response := some (toResponse (decMode0 v s).1) } ∧
    execOp .checkMode1 s = .next { s.afterXchg (frameRR s.cfg s.cfg.regMap.mode1) with
      response := some (toResponse (decMode1 v s).1) } ∧
    execOp .checkMode2 s = .next { s.afterXchg (frameRR s.cfg s.cfg.regMap.mode2) with
      response := some (.ok (.byte v)) } ∧
    execOp .checkMode3 s = .next { s.afterXchg (frameRR s.cfg s.cfg.regMap.mode3) with
      response := some (.ok (.mode3 (mode3Flags v))) } ∧
    execOp .checkStatus s = .next { s.afterXchg (frameRR s.cfg s.cfg.regMap.status) with
      response := some (.ok (.status (statusFlags v))) } ∧
    execOp .checkId s = .next { s.afterXchg (frameRR s.cfg s.cfg.regMap.id) with
      response := some (.ok (.byte v)) })

/-- R170: READ_REGISTER is one RREG exchange that returns `rx[2]` and writes no state; a failed exchange is
`TransportFailure`; an unknown name ends it before any exchange. -/
def Obligations.ReadRegisterReturnsByteTwo : Prop :=
  ∀ s : State, s.acq.resting = true → 1 ≤ s.cfg.nDummy →
    (∀ (r : RegId) (rx : List Byte) (v : Byte), s.answer (2 + s.cfg.nDummy) = some rx → rx[2]? = some v →
      execOp (.readRegister r.name) s = .next { s.afterXchg (frameRR s.cfg (s.cfg.regMap.addr r)) with
        response := some (.ok (.byte v)) }) ∧
    (∀ r : RegId, s.answer (2 + s.cfg.nDummy) = none →
      execOp (.readRegister r.name) s = .next { s.afterXchg (frameRR s.cfg (s.cfg.regMap.addr r)) with
        response := some (.err .transportFailure) }) ∧
    (∀ n : Ident, RegId.ofName n = none →
      execOp (.readRegister n) s = .next { s with response := some (.err (.unknownIdentifier (.name n))) })

/-- RREG on the wire (R52, R170; log entries 6 and 9, the model's choices): the read of the register at the
address; an address of no register is an unknown register, before any exchange; in an `ACQ` state other than Idle
and Fault the block has no step (R171). -/
def Obligations.RregReadsTheRegisterAtItsAddress : Prop :=
  ∀ (s : State) (a : Addr), 1 ≤ s.cfg.nDummy →
    (∀ (r : RegId) (rx : List Byte) (v : Byte), s.acq.resting = true → s.cfg.regMap.regAt a = some r →
      s.answer (2 + s.cfg.nDummy) = some rx → rx[2]? = some v →
      exec (.rreg a) s = .next { s.afterXchg (frameRR s.cfg a) with response := some (.ok (.byte v)) }) ∧
    (∀ r : RegId, s.acq.resting = true → s.cfg.regMap.regAt a = some r → s.answer (2 + s.cfg.nDummy) = none →
      exec (.rreg a) s = .next { s.afterXchg (frameRR s.cfg a) with response := some (.err .transportFailure) }) ∧
    (s.acq.resting = true → s.cfg.regMap.regAt a = none →
      exec (.rreg a) s = .next { s with response := some (.err (.unknownIdentifier (.number a.toNat))) }) ∧
    (s.acq.resting = false → exec (.rreg a) s = .refused .notAccepted)

/-- R172: the write+verify cycle, outcome by outcome: a failed first exchange issues no verify read; a failed
second one updates no shadow; on a match the register's own shadow is committed and the layout follows MODE3 (R20, R29,
R179); a STATUS mismatch is `Ok` (the spec's decision D24);
any other mismatch is `VerificationFailed`; an unknown name ends it before any exchange. -/
def Obligations.WriteRegisterVerifiesItsWrite : Prop :=
  ∀ (s : State) (v : Byte), s.acq.resting = true → 1 ≤ s.cfg.nDummy →
    (∀ n : Ident, RegId.ofName n = none →
      execOp (.writeRegister n v) s = .next { s with response := some (.err (.unknownIdentifier (.name n))) }) ∧
    (∀ (r : RegId) (s1 s2 : State),
      s1 = s.afterXchg (frameWR s.cfg (s.cfg.regMap.addr r) v) →
      s2 = s1.afterXchg (frameRR s.cfg (s.cfg.regMap.addr r)) →
      (s.answer 5 = none →
        execOp (.writeRegister r.name v) s = .next { s1 with response := some (.err .transportFailure) }) ∧
      (∀ rx, s.answer 5 = some rx →
        (s1.answer (2 + s.cfg.nDummy) = none →
          execOp (.writeRegister r.name v) s = .next { s2 with response := some (.err .transportFailure) }) ∧
        (∀ rx' got, s1.answer (2 + s.cfg.nDummy) = some rx' → rx'[2]? = some got →
          (got = v → ∃ t, execOp (.writeRegister r.name v) s = .next t ∧
            t = { s2 with sh := s.sh.set r v, response := some (.ok .unit) } ∧ committed s t r v) ∧
          (got ≠ v → r = .status →
            execOp (.writeRegister r.name v) s = .next { s2 with response := some (.ok .unit) }) ∧
          (got ≠ v → r ≠ .status → execOp (.writeRegister r.name v) s =
            .next { s2 with response := some (.err (.verificationFailed r v got)) }))))

/-- WREG on the wire (R53, R172; log entries 6, 8 and 9, the model's choices): the write+verify cycle of the
register at the address, outcome by outcome. A failed first exchange issues no verify read and a failed second one
updates no shadow; a match commits the shadow of a shadowed register and only that, and the layout follows MODE3; a
mismatch changes no shadow. -/
def Obligations.WregWritesAndVerifies : Prop :=
  ∀ (s : State) (a : Addr) (v : Byte), 1 ≤ s.cfg.nDummy →
    (s.acq.resting = false → exec (.wreg a v) s = .refused .notAccepted) ∧
    (s.acq.resting = true → s.cfg.regMap.regAt a = none →
      exec (.wreg a v) s = .next { s with response := some (.err (.unknownIdentifier (.number a.toNat))) }) ∧
    (∀ (r : RegId) (s1 s2 : State), s.acq.resting = true → s.cfg.regMap.regAt a = some r →
      s1 = s.afterXchg (frameWR s.cfg a v) → s2 = s1.afterXchg (frameRR s.cfg a) →
      (s.answer 5 = none → exec (.wreg a v) s = .next { s1 with response := some (.err .transportFailure) }) ∧
      (∀ rx, s.answer 5 = some rx →
        (s1.answer (2 + s.cfg.nDummy) = none →
          exec (.wreg a v) s = .next { s2 with response := some (.err .transportFailure) }) ∧
        (∀ rx' got, s1.answer (2 + s.cfg.nDummy) = some rx' → rx'[2]? = some got →
          (got = v → ∃ t, exec (.wreg a v) s = .next t ∧
            t = { s2 with sh := s.sh.set r v, response := some (.ok .unit) } ∧ committed s t r v) ∧
          (got ≠ v → r = .status → exec (.wreg a v) s = .next { s2 with response := some (.ok .unit) }) ∧
          (got ≠ v → r ≠ .status →
            exec (.wreg a v) s = .next { s2 with response := some (.err (.verificationFailed r v got)) }))))

/-- R23, R29: the two read ports of the shadows: DEVICE_CONFIG returns them all, with "no value" where `SHV` is 0,
and `LAYOUT()` takes bits 6 and 5 of `SH[MODE3]`, or of `MODE3_POWERON` while that shadow holds no value. -/
def Obligations.ShadowsAreReadThroughTheirValidBits : Prop :=
  ∀ s : State,
    execOp .deviceConfig s = .next { s with response := some (.ok (.deviceConfig s.sh)) } ∧
    (∀ v : Byte, s.sh.mode3 = some v → s.layout = (v.getLsbD 6, v.getLsbD 5)) ∧
    (s.sh.mode3 = none → s.layout = (s.cfg.mode3PowerOn.getLsbD 6, s.cfg.mode3PowerOn.getLsbD 5))

/-! ### Frames of the operations, acceptance, errors -/

/-- What each host operation leaves unchanged (R20, R171, R262): the parameters and the requests to come, the two
lines no operation drives, the reset line but for RESET_PULSE, every shadow but the one the operation writes,
`POLLS` and the record of a returned wait (log entry 13) but for a wait, `ACQ` where R224 lists no move, and every event already in the history. -/
def Obligations.HostOperationsFrame : Prop :=
  ∀ (o : HostOp) (s t : State), execOp o s = .next t →
    t.cfg = s.cfg ∧ t.inbox = s.inbox ∧ t.pwdnHold = s.pwdnHold ∧ t.startPin = s.startPin ∧
    (o ≠ .resetPulse → t.resetN = s.resetN) ∧
    (∀ q : RegId, o.writes ≠ some q → t.sh.get q = s.sh.get q) ∧
    (o.waits = false → t.polls = s.polls ∧ t.waitDone = s.waitDone) ∧
    (o.successors s.acq = [s.acq] → t.acq = s.acq) ∧
    s.history <+: t.history

/-- What each wire command leaves unchanged (R20, R171, R224, R267): the parameters, the requests to come, the three
lines, `POLLS`, the record of a returned wait, the samples to come, every shadow but the one of the register a WREG
addresses, `ACQ` but for START and RDATA, and the events already in the history; RESET adds no event. What a wire
command means (log entry 6), that RESET is only built and WREG is the whole cycle (log entries 7 and 8), the record of
a returned wait (log entry 13) and the history (log entry 17) are the model's choices. -/
def Obligations.WireCommandsFrame : Prop :=
  ∀ (i : Instr) (s t : State), exec i s = .next t →
    t.cfg = s.cfg ∧ t.inbox = s.inbox ∧ t.resetN = s.resetN ∧ t.pwdnHold = s.pwdnHold ∧
    t.startPin = s.startPin ∧ t.polls = s.polls ∧ t.waitDone = s.waitDone ∧ t.samples = s.samples ∧
    (∀ q : RegId, (∀ a v, i = .wreg a v → s.cfg.regMap.regAt a ≠ some q) → t.sh.get q = s.sh.get q) ∧
    (i ≠ .start → i ≠ .rdata → t.acq = s.acq) ∧
    s.history <+: t.history ∧ (i = .reset → t.history = s.history)

/-- R250, R171, R215, D22: an operation accepted in the present state (by `ACQ`; READ_DATA by the record of a returned
wait too, log entry 13), with operands in their types, ends with exactly one response; where its `require` is false
the block has no step for it (refused: log entry 12). A reference outside its `REF_W` bits is refused, whatever else
holds (U21, log entry 21). -/
def Obligations.OperationsRespondExactlyWhereAccepted : Prop :=
  ∀ s : State,
    (∀ o : HostOp, o.inType s.cfg = true →
      (o.accepts s.acq s.waitDone = true →
        ∃ (t : State) (r : Response), execOp o s = .next t ∧ t.response = some r) ∧
      (o.accepts s.acq s.waitDone = false → execOp o s = .refused .notAccepted)) ∧
    (∀ referenceMv gain : Nat, 2 ^ s.cfg.refW ≤ referenceMv →
      (∀ b0 b1 b2 : Byte, execOp (.raw24ToMv b0 b1 b2 referenceMv gain) s = .refused .referenceOutOfRange) ∧
      (∀ (status : Option Byte) (raw : Sample),
        execOp (.finish status raw referenceMv gain) s = .refused .referenceOutOfRange) ∧
      (∀ mode : Ident, execOp (.collectMeasurement mode referenceMv gain) s = .refused .referenceOutOfRange))

/-- R4: the pure functions and DEVICE_CONFIG change nothing but the response. -/
def Obligations.PureOperationsChangeOnlyTheResponse : Prop :=
  ∀ (o : HostOp) (s t : State), o.pure = true → execOp o s = .next t → t = { s with response := t.response }

/-- R262: an operation that ends in an error changes no shadow and no line, and leaves `ACQ` and `POLLS` as the
table says. -/
def Obligations.ErrorsChangeOnlyWhatTheTableSays : Prop :=
  ∀ (o : HostOp) (s t : State) (e : Err), execOp o s = .next t → t.response = some (.err e) →
    t.sh = s.sh ∧ t.resetN = s.resetN ∧ t.pwdnHold = s.pwdnHold ∧ t.startPin = s.startPin ∧
    match e with
    | .unknownIdentifier _ => t.acq = s.acq
    | .verificationFailed _ _ _ => t.acq = s.acq
    | .pgaAlarm => t.acq = .fault
    | .timeout => t.acq = .fault ∧ t.polls = s.cfg.retryBudget
    | .transportFailure => t.acq = if o.acquires then .fault else s.acq

/-- R257, R262: a failed exchange is the last event of its operation, which responds `TransportFailure`; and no
operation responds so without one. -/
def Obligations.FailedExchangeEndsItsOperation : Prop :=
  ∀ (o : HostOp) (s t : State), execOp o s = .next t →
    (∀ pre tx post, newEvents s t = pre ++ .xchg tx none :: post →
      post = [] ∧ t.response = some (.err .transportFailure)) ∧
    (t.response = some (.err .transportFailure) → ∃ pre tx, newEvents s t = pre ++ [.xchg tx none])

/-- R24, R251: the encodings of `ACQ` and of the responses. -/
def Obligations.CodesOfAcqAndResponses : Prop :=
  Acq.code .idle = 0 ∧ Acq.code .armed = 1 ∧ Acq.code .waitingForData = 2 ∧ Acq.code .dataAvailable = 3 ∧
  Acq.code .fault = 4 ∧
  (∀ v, Response.code (.ok v) = 0) ∧ (∀ u, Response.code (.err (.unknownIdentifier u)) = 1) ∧
  (∀ r v got, Response.code (.err (.verificationFailed r v got)) = 2) ∧ Response.code (.err .pgaAlarm) = 3 ∧
  Response.code (.err .timeout) = 4 ∧ Response.code (.err .transportFailure) = 5

/-! ### The converter -/

/-- R200: `s * reference_mV / (gain * 2^23)` with `s` the two's-complement reading, exactly; a gain outside the
table is `UnknownIdentifier`. -/
def Obligations.ConverterReturnsTheExactQuotient : Prop :=
  ∀ (s : State) (b0 b1 b2 : Byte) (referenceMv gain : Nat) (raw : Nat) (signed : Int),
    referenceMv < 2 ^ s.cfg.refW → raw = b0.toNat * 65536 + b1.toNat * 256 + b2.toNat →
    signed = (if b0.toNat > 127 then -(2 ^ 24 - (raw : Int)) else (raw : Int)) →
    (gain ∈ [1, 2, 4, 8, 16, 32, 64, 128] → ∃ q : Rat,
      q * ((gain : Rat) * 2 ^ 23) = (signed : Rat) * (referenceMv : Rat) ∧
      execOp (.raw24ToMv b0 b1 b2 referenceMv gain) s =
        .next { s with response := some (.ok (.millivolts q)) }) ∧
    (gain ∉ [1, 2, 4, 8, 16, 32, 64, 128] →
      execOp (.raw24ToMv b0 b1 b2 referenceMv gain) s =
        .next { s with response := some (.err (.unknownIdentifier (.number gain))) })

/-- R202: zero, the two signs, -1 code, strict monotonicity in the signed reading, and a zero reference. -/
def Obligations.ConverterIsStrictlyIncreasing : Prop :=
  ∀ (referenceMv gain : Nat), gain ∈ [1, 2, 4, 8, 16, 32, 64, 128] →
    millivolts 0 referenceMv gain = 0 ∧
    (∀ raw : Sample, millivolts raw 0 gain = 0) ∧
    s24 0xFFFFFF = -1 ∧
    (0 < referenceMv →
      (∀ raw : Sample, 0 < raw.toNat → raw.toNat ≤ 0x7FFFFF → 0 < millivolts raw referenceMv gain) ∧
      (∀ raw : Sample, 0x800000 ≤ raw.toNat → millivolts raw referenceMv gain < 0) ∧
      (∀ raw raw' : Sample, s24 raw < s24 raw' →
        millivolts raw referenceMv gain < millivolts raw' referenceMv gain))

/-- R201: the denominator is 2^23: the most negative code gives exactly `-reference/gain`, the most positive one
code step less than `reference/gain`. -/
def Obligations.ConverterFullScaleIsTwoToTheTwentyThree : Prop :=
  ∀ (referenceMv gain : Nat), gain ∈ [1, 2, 4, 8, 16, 32, 64, 128] →
    millivolts 0x800000 referenceMv gain = -((referenceMv : Rat) / gain) ∧
    millivolts 0x7FFFFF referenceMv gain =
      (referenceMv : Rat) / gain - (referenceMv : Rat) / ((gain : Rat) * 2 ^ 23)

/-- R203: with a 16-bit reference the numerator is below 2^39 in size and the result is a whole number of 2^-30
millivolts, so a binary64 holds it exactly. -/
def Obligations.ConverterResultsAreDyadic : Prop :=
  ∀ (raw : Sample) (referenceMv gain : Nat), referenceMv < 2 ^ 16 → gain ∈ [1, 2, 4, 8, 16, 32, 64, 128] →
    (s24 raw * (referenceMv : Int)).natAbs < 2 ^ 39 ∧
    ∃ k : Int, millivolts raw referenceMv gain = (k : Rat) / 2 ^ 30

/-! ### The acquisition sequencer -/

/-- R210, on the wire and at the host port (START is the frame ARM sends; log entry 6), in a legal configuration:
accepted from Idle and from Fault alike; the exchange done, Armed; the exchange failed, Fault and `TransportFailure`;
in any other state no step. Nothing else changes, the start pin and the shadows included. -/
def Obligations.StartArms : Prop :=
  ∀ s : State, s.cfg.legal = true →
    execOp .arm s = exec .start s ∧
    (∀ rx : List Byte, s.acq = .idle ∨ s.acq = .fault → s.answer 3 = some rx →
      exec .start s = .next { s.afterXchg [0x08, 0x10, 0x00] with
        acq := .armed, response := some (.ok .unit) }) ∧
    (s.acq = .idle ∨ s.acq = .fault → s.answer 3 = none →
      exec .start s = .next { s.afterXchg [0x08, 0x10, 0x00] with
        acq := .fault, response := some (.err .transportFailure) }) ∧
    (s.acq ≠ .idle → s.acq ≠ .fault → exec .start s = .refused .notAccepted)

/-- R211: ENTER_WAIT from Armed sets `POLLS` to 0 and `ACQ` to WaitingForData, no wait having returned since (the
model's record: log entry 13); elsewhere no step (a refusal: log entry 12). -/
def Obligations.EnterWaitStartsTheCount : Prop :=
  ∀ s : State,
    (s.acq = .armed → execOp .enterWait s =
      .next { s with polls := 0, acq := .waitingForData, waitDone := false, response := some (.ok .unit) }) ∧
    (s.acq ≠ .armed → execOp .enterWait s = .refused .notAccepted)

/-- R212 (and the record of R215's returned wait: log entry 13): with `ls` the replies of the polls that show not-ready (bit 2 of the value byte clear), WAIT_POLLED
returns at the first reply with bit 2 set, whatever its other bits; it is `Timeout` after exactly the budget of
not-ready polls, and `TransportFailure` at a failed one. -/
def Obligations.WaitPolledOutcomes : Prop :=
  ∀ (s : State) (ls : List (List Byte)) (rest : List Reply), s.acq = .armed → 1 ≤ s.cfg.nDummy →
    (∀ x ∈ ls, ∃ w : Byte, x[2]? = some w ∧ w.getLsbD 2 = false) →
    (∀ (l : List Byte) (v : Byte), s.replies = ls.map .bytes ++ .bytes l :: rest → l[2]? = some v →
      v.getLsbD 2 = true → ls.length < s.cfg.retryBudget →
      ∃ t, execOp .waitPolled s = .next t ∧ t.acq = .waitingForData ∧ t.waitDone = true ∧ t.polls = ls.length + 1 ∧
        t.response = some (.ok .unit) ∧ t.replies = rest ∧
        sentFrames (newEvents s t) = List.replicate (ls.length + 1) (frameRR s.cfg s.cfg.regMap.status)) ∧
    (s.replies = ls.map .bytes ++ rest → ls.length = s.cfg.retryBudget →
      ∃ t, execOp .waitPolled s = .next t ∧ t.acq = .fault ∧ t.waitDone = false ∧ t.polls = s.cfg.retryBudget ∧
        t.response = some (.err .timeout) ∧ t.replies = rest ∧
        sentFrames (newEvents s t) =
          List.replicate s.cfg.retryBudget (frameRR s.cfg s.cfg.regMap.status)) ∧
    (s.replies = ls.map .bytes ++ .fails :: rest → ls.length < s.cfg.retryBudget →
      ∃ t, execOp .waitPolled s = .next t ∧ t.acq = .fault ∧ t.waitDone = false ∧ t.polls = ls.length + 1 ∧
        t.response = some (.err .transportFailure) ∧ t.replies = rest) ∧
    (s.cfg.retryBudget = 0 →
      execOp .waitPolled s =
        .next { s with polls := 0, acq := .fault, waitDone := false, response := some (.err .timeout) })

/-- R213: WAIT_SIGNAL returns at the first sample of 0, after `k` samples of 1; it is `Timeout` after exactly the
budget of samples of 1. No exchange is made. (That the wait has returned is on record: log entry 13.) -/
def Obligations.WaitSignalOutcomes : Prop :=
  ∀ (s : State) (k : Nat) (rest : List Bool), s.acq = .armed →
    (s.samples = List.replicate k true ++ false :: rest → k < s.cfg.retryBudget →
      ∃ t, execOp .waitSignal s = .next t ∧ t.acq = .waitingForData ∧ t.waitDone = true ∧ t.polls = k + 1 ∧
        t.response = some (.ok .unit) ∧ t.samples = rest ∧ t.replies = s.replies ∧
        newEvents s t = List.replicate k (.sampleDrdy true) ++ [.sampleDrdy false]) ∧
    (s.samples = List.replicate s.cfg.retryBudget true ++ rest →
      ∃ t, execOp .waitSignal s = .next t ∧ t.acq = .fault ∧ t.waitDone = false ∧ t.polls = s.cfg.retryBudget ∧
        t.response = some (.err .timeout) ∧ t.samples = rest ∧ t.replies = s.replies ∧
        newEvents s t = List.replicate s.cfg.retryBudget (.sampleDrdy true))

/-- R215, on the wire and at the host port (RDATA is the frame READ_DATA sends; log entry 6), in a legal configuration:
from WaitingForData once a WAIT has returned `Ok` (the model's record of it: log entry 13), whatever `POLLS` holds, the
reply is parsed by the layout of that moment and `ACQ` becomes DataAvailable; a failed exchange gives Fault and
`TransportFailure`; elsewhere no step. -/
def Obligations.RdataReadsTheSample : Prop :=
  ∀ s : State, s.cfg.legal = true →
    execOp .readData s = exec .rdata s ∧
    (∀ rx : List Byte, s.acq = .waitingForData → s.waitDone = true → s.answer 9 = some rx →
      exec .rdata s = .next { s.afterXchg [0x12, 0x00, 0x00, 0x00, 0x00, 0x00, 0x00, 0x00, 0x00] with
        acq := .dataAvailable,
        response := some (.ok (.sample (parseRdata s.cfg rx s.layout.1 s.layout.2).1
          (parseRdata s.cfg rx s.layout.1 s.layout.2).2)) }) ∧
    (s.acq = .waitingForData → s.waitDone = true → s.answer 9 = none →
      exec .rdata s = .next { s.afterXchg [0x12, 0x00, 0x00, 0x00, 0x00, 0x00, 0x00, 0x00, 0x00] with
        acq := .fault, response := some (.err .transportFailure) }) ∧
    (s.acq ≠ .waitingForData ∨ s.waitDone = false → exec .rdata s = .refused .notAccepted)

/-- R214: the PGA-alarm predicate, in a legal configuration. -/
def Obligations.AlarmPredicate : Prop :=
  ∀ (c : Config) (sb : Byte) (raw : Sample), c.legal = true →
    (alarm c (some sb) raw = true ↔
      sb.getLsbD 5 = true ∨ sb.getLsbD 4 = true ∨ raw = 0x7FFFFF ∨ raw = 0x800000) ∧
    (alarm c none raw = true ↔ c.satCheckWithoutStatus = true ∧ (raw = 0x7FFFFF ∨ raw = 0x800000))

/-- R217: FINISH from DataAvailable: an alarm gives Fault and `PgaAlarm` and no number; else the millivolts and
Idle; a bad gain leaves `ACQ` DataAvailable; elsewhere no step (a refusal: log entry 12). -/
def Obligations.FinishOutcomes : Prop :=
  ∀ (s : State) (status : Option Byte) (raw : Sample) (referenceMv gain : Nat),
    referenceMv < 2 ^ s.cfg.refW →
    (s.acq = .dataAvailable → alarm s.cfg status raw = true →
      execOp (.finish status raw referenceMv gain) s =
        .next { s with acq := .fault, response := some (.err .pgaAlarm) }) ∧
    (s.acq = .dataAvailable → alarm s.cfg status raw = false → gain ∈ [1, 2, 4, 8, 16, 32, 64, 128] →
      execOp (.finish status raw referenceMv gain) s =
        .next { s with acq := .idle, response := some (.ok (.millivolts (millivolts raw referenceMv gain))) }) ∧
    (s.acq = .dataAvailable → alarm s.cfg status raw = false → gain ∉ [1, 2, 4, 8, 16, 32, 64, 128] →
      execOp (.finish status raw referenceMv gain) s =
        .next { s with response := some (.err (.unknownIdentifier (.number gain))) }) ∧
    (s.acq ≠ .dataAvailable → execOp (.finish status raw referenceMv gain) s = .refused .notAccepted)

/-- R216, Polled: a run that sees data-ready on poll `ls.length + 1` sends one START, that many STATUS reads and
one RDATA, and ends as FINISH does on the sample of the reply `d`. -/
def Obligations.CollectPolledRun : Prop :=
  ∀ (s : State) (rx0 l d : List Byte) (ls : List (List Byte)) (v : Byte) (rest : List Reply)
    (referenceMv gain : Nat) (status : Option Byte) (raw : Sample),
    s.cfg.legal = true → s.acq.resting = true → referenceMv < 2 ^ s.cfg.refW →
    gain ∈ [1, 2, 4, 8, 16, 32, 64, 128] →
    s.replies = .bytes rx0 :: (ls.map .bytes ++ .bytes l :: .bytes d :: rest) →
    (∀ x ∈ ls, ∃ w : Byte, x[2]? = some w ∧ w.getLsbD 2 = false) →
    l[2]? = some v → v.getLsbD 2 = true → ls.length < s.cfg.retryBudget → d.length = 9 →
    (status, raw) = parseRdata s.cfg d s.layout.1 s.layout.2 →
    ∃ t, execOp (.collectMeasurement "Polled" referenceMv gain) s = .next t ∧
      t.polls = ls.length + 1 ∧ t.replies = rest ∧ t.sh = s.sh ∧
      sentFrames (newEvents s t) = [0x08, 0x10, 0x00] ::
        (List.replicate (ls.length + 1) (frameRR s.cfg s.cfg.regMap.status) ++ [frameRD s.cfg]) ∧
      (alarm s.cfg status raw = false →
        t.acq = .idle ∧ t.response = some (.ok (.millivolts (millivolts raw referenceMv gain)))) ∧
      (alarm s.cfg status raw = true → t.acq = .fault ∧ t.response = some (.err .pgaAlarm))

/-- R216, SignalDriven: a run that sees `DRDY_n` low on sample `k + 1` sends one START and one RDATA, takes that
many samples between them, and ends as FINISH does on the sample of the reply `d`. -/
def Obligations.CollectSignalRun : Prop :=
  ∀ (s : State) (rx0 d : List Byte) (k : Nat) (rest : List Reply) (srest : List Bool)
    (referenceMv gain : Nat) (status : Option Byte) (raw : Sample),
    s.cfg.legal = true → s.acq.resting = true → referenceMv < 2 ^ s.cfg.refW →
    gain ∈ [1, 2, 4, 8, 16, 32, 64, 128] → s.replies = .bytes rx0 :: .bytes d :: rest → d.length = 9 →
    s.samples = List.replicate k true ++ false :: srest → k < s.cfg.retryBudget →
    (status, raw) = parseRdata s.cfg d s.layout.1 s.layout.2 →
    ∃ t e0, execOp (.collectMeasurement "SignalDriven" referenceMv gain) s = .next t ∧
      t.polls = k + 1 ∧ t.replies = rest ∧ t.samples = srest ∧ t.sh = s.sh ∧
      newEvents s t = .xchg [0x08, 0x10, 0x00] e0 ::
        (List.replicate k (.sampleDrdy true) ++ [.sampleDrdy false, .xchg (frameRD s.cfg) (some d)]) ∧
      (alarm s.cfg status raw = false →
        t.acq = .idle ∧ t.response = some (.ok (.millivolts (millivolts raw referenceMv gain)))) ∧
      (alarm s.cfg status raw = true → t.acq = .fault ∧ t.response = some (.err .pgaAlarm))

/-- R225 (a), R255: a device that never shows data-ready gives `Timeout` after exactly the budget of polls, in both
modes, with `ACQ` in Fault, one START frame and no RDATA frame. -/
def Obligations.NeverReadyEndsInTimeout : Prop :=
  ∀ (s : State) (rx0 : List Byte) (referenceMv gain : Nat),
    s.cfg.legal = true → s.acq.resting = true → referenceMv < 2 ^ s.cfg.refW →
    gain ∈ [1, 2, 4, 8, 16, 32, 64, 128] →
    (∀ (ls : List (List Byte)) (rest : List Reply), s.replies = .bytes rx0 :: (ls.map .bytes ++ rest) →
      ls.length = s.cfg.retryBudget → (∀ x ∈ ls, ∃ w : Byte, x[2]? = some w ∧ w.getLsbD 2 = false) →
      ∃ t, execOp (.collectMeasurement "Polled" referenceMv gain) s = .next t ∧
        t.response = some (.err .timeout) ∧ t.acq = .fault ∧ t.polls = s.cfg.retryBudget ∧
        sentFrames (newEvents s t) = [0x08, 0x10, 0x00] ::
          List.replicate s.cfg.retryBudget (frameRR s.cfg s.cfg.regMap.status)) ∧
    (∀ (rest : List Reply) (srest : List Bool), s.replies = .bytes rx0 :: rest →
      s.samples = List.replicate s.cfg.retryBudget true ++ srest →
      ∃ t e0, execOp (.collectMeasurement "SignalDriven" referenceMv gain) s = .next t ∧
        t.response = some (.err .timeout) ∧ t.acq = .fault ∧ t.polls = s.cfg.retryBudget ∧
        newEvents s t = .xchg [0x08, 0x10, 0x00] e0 :: List.replicate s.cfg.retryBudget (.sampleDrdy true))

/-- R225 (b): with `LAYOUT()` = (1, 0) an RDATA reply whose bytes 3, 4, 5 are 0x7F, 0xFF, 0xFF ends the acquisition
in `PgaAlarm` and Fault, whatever the status byte and the other bytes, in both modes. -/
def Obligations.SaturatedSampleEndsInPgaAlarm : Prop :=
  ∀ (s : State) (rx0 d : List Byte) (b0 b1 b2 b6 b7 b8 : Byte) (rest : List Reply) (referenceMv gain : Nat),
    s.cfg.legal = true → s.acq.resting = true → referenceMv < 2 ^ s.cfg.refW →
    gain ∈ [1, 2, 4, 8, 16, 32, 64, 128] → s.layout = (true, false) →
    d = [b0, b1, b2, 0x7F, 0xFF, 0xFF, b6, b7, b8] →
    (∀ (l : List Byte) (ls : List (List Byte)) (v : Byte),
      s.replies = .bytes rx0 :: (ls.map .bytes ++ .bytes l :: .bytes d :: rest) →
      (∀ x ∈ ls, ∃ w : Byte, x[2]? = some w ∧ w.getLsbD 2 = false) →
      l[2]? = some v → v.getLsbD 2 = true → ls.length < s.cfg.retryBudget →
      ∃ t, execOp (.collectMeasurement "Polled" referenceMv gain) s = .next t ∧
        t.response = some (.err .pgaAlarm) ∧ t.acq = .fault) ∧
    (∀ (k : Nat) (srest : List Bool), s.replies = .bytes rx0 :: .bytes d :: rest →
      s.samples = List.replicate k true ++ false :: srest → k < s.cfg.retryBudget →
      ∃ t, execOp (.collectMeasurement "SignalDriven" referenceMv gain) s = .next t ∧
        t.response = some (.err .pgaAlarm) ∧ t.acq = .fault)

/-- R216, R252, R262: how COLLECT_MEASUREMENT can end: millivolts with Idle; `Timeout`, `PgaAlarm` or
`TransportFailure` with Fault; or `UnknownIdentifier` for the mode, then for the gain, with nothing changed but the
response. -/
def Obligations.CollectEndsInIdleOrFault : Prop :=
  ∀ (s t : State) (mode : Ident) (referenceMv gain : Nat),
    execOp (.collectMeasurement mode referenceMv gain) s = .next t →
    (mode ≠ "Polled" → mode ≠ "SignalDriven" →
      t = { s with response := some (.err (.unknownIdentifier (.name mode))) }) ∧
    (mode = "Polled" ∨ mode = "SignalDriven" → gain ∉ [1, 2, 4, 8, 16, 32, 64, 128] →
      t = { s with response := some (.err (.unknownIdentifier (.number gain))) }) ∧
    (mode = "Polled" ∨ mode = "SignalDriven" → gain ∈ [1, 2, 4, 8, 16, 32, 64, 128] →
      (∃ q, t.response = some (.ok (.millivolts q)) ∧ t.acq = .idle) ∨
      (t.response ∈ [some (.err .timeout), some (.err .pgaAlarm), some (.err .transportFailure)] ∧
        t.acq = .fault))

/-! ### Device control -/

/-- R220, on the wire and at the host port (log entry 6), in a legal configuration: one exchange of the STOP frame,
`ACQ` unchanged either way. -/
def Obligations.StopSendsItsFrame : Prop :=
  ∀ s : State, s.cfg.legal = true →
    execOp .stop s = exec .stop s ∧
    (∀ rx : List Byte, s.acq = .idle ∨ s.acq = .fault → s.answer 3 = some rx →
      exec .stop s = .next { s.afterXchg [0x0A, 0x10, 0x00] with response := some (.ok .unit) }) ∧
    (s.acq = .idle ∨ s.acq = .fault → s.answer 3 = none →
      exec .stop s = .next { s.afterXchg [0x0A, 0x10, 0x00] with response := some (.err .transportFailure) }) ∧
    (s.acq ≠ .idle → s.acq ≠ .fault → exec .stop s = .refused .notAccepted)

/-- R221, R223, on the wire and at the host port (log entry 6), in a legal configuration: one exchange of the
calibration frame, then the settle delay; a failed exchange runs no delay; `ACQ` unchanged either way. -/
def Obligations.CalibrationsSendTheirFrames : Prop :=
  ∀ s : State, s.cfg.legal = true →
    execOp .calibrateSelf s = exec .sfocal s ∧ execOp .calibrateSystem s = exec .syocal s ∧
    (∀ rx : List Byte, s.acq = .idle ∨ s.acq = .fault → s.answer 2 = some rx →
      exec .sfocal s = .next { s.afterXchg [0x19, 0x10] with
        history := (s.afterXchg [0x19, 0x10]).history ++ [.delay .calSettle], response := some (.ok .unit) } ∧
      exec .syocal s = .next { s.afterXchg [0x16, 0x10] with
        history := (s.afterXchg [0x16, 0x10]).history ++ [.delay .calSettle], response := some (.ok .unit) }) ∧
    (s.acq = .idle ∨ s.acq = .fault → s.answer 2 = none →
      exec .sfocal s = .next { s.afterXchg [0x19, 0x10] with response := some (.err .transportFailure) } ∧
      exec .syocal s = .next { s.afterXchg [0x16, 0x10] with response := some (.err .transportFailure) }) ∧
    (s.acq ≠ .idle → s.acq ≠ .fault →
      exec .sfocal s = .refused .notAccepted ∧ exec .syocal s = .refused .notAccepted)

/-- R222: RESET_PULSE drives `RESET_n` low, waits, drives it high, and sets `ACQ` to Idle; no exchange is made and no
shadow is touched. -/
def Obligations.ResetPulseIdlesTheSequencer : Prop :=
  ∀ s : State,
    (s.acq = .idle ∨ s.acq = .fault →
      execOp .resetPulse s = .next { s with
        acq := .idle, resetN := true,
        history := s.history ++ [.drive .resetN false, .delay .resetLow, .drive .resetN true],
        response := some (.ok .unit) }) ∧
    (s.acq ≠ .idle → s.acq ≠ .fault → execOp .resetPulse s = .refused .notAccepted)

/-! ### Reset, the step, the whole machine -/

/-- R43: the state after the block's reset. -/
def Obligations.ResetLeavesTheTable : Prop :=
  (∀ r : RegId, State.reset.sh.get r = none) ∧ State.reset.acq = .idle ∧ State.reset.polls = 0 ∧
  State.reset.resetN = true ∧ State.reset.pwdnHold = true ∧ State.reset.startPin = false

/-- R280: the block's reset between operations gives the table's state from any state, adds no event and keeps
neither a response nor the record of a returned wait (these three, and the requests to come, are the model's choice:
log entries 13 and 16). -/
def Obligations.BlockResetLeavesTheTable : Prop :=
  ∀ (s : State) (rest : List Request), s.cfg.legal = true → s.inbox = .blockReset :: rest →
    ∃ t, step s = .next t ∧ (∀ r : RegId, t.sh.get r = none) ∧ t.acq = .idle ∧ t.polls = 0 ∧
      t.resetN = true ∧ t.pwdnHold = true ∧ t.startPin = false ∧ t.response = none ∧
      t.waitDone = false ∧ t.history = s.history ∧ t.cfg = s.cfg ∧ t.inbox = rest ∧
      t.layout = (s.cfg.mode3PowerOn.getLsbD 6, s.cfg.mode3PowerOn.getLsbD 5)

/-- R280, U24 (log entry 16): the block's reset after `n` events of an operation: those events have happened, no
later one does, there is no response, and the state is the table's; of an operation the block has no step for, no
event has happened and the reset is all. -/
def Obligations.ResetDuringAnOperationAbandonsIt : Prop :=
  ∀ (s : State) (o : HostOp) (n : Nat) (rest : List Request) (es : List Event), s.cfg.legal = true →
    s.inbox = .blockResetDuring o n :: rest →
    ((∃ u, execOp o { s with inbox := rest } = .next u ∧ es = (newEvents s u).take n) ∨
      ∃ r, execOp o { s with inbox := rest } = .refused r ∧ es = []) →
    ∃ t, step s = .next t ∧ (∀ r : RegId, t.sh.get r = none) ∧ t.acq = .idle ∧ t.polls = 0 ∧
      t.resetN = true ∧ t.pwdnHold = true ∧ t.startPin = false ∧ t.response = none ∧
      t.history = s.history ++ es ∧ t.cfg = s.cfg ∧ t.inbox = rest

/-- The state after reset meets the invariant (its configuration is the defaults: log entry 2). -/
def Obligations.InvariantHoldsAtReset : Prop := State.reset.inv

/-- R20, R25, R267: every step keeps the invariant: a legal configuration (log entry 20), `POLLS` within the
budget, the three lines at rest. -/
def Obligations.StepKeepsTheInvariant : Prop :=
  ∀ s t : State, s.inv → step s = .next t → t.inv

/-- R19, R59: no step changes a parameter, and the history only grows (it is the model's record: log entry 17). -/
def Obligations.ParametersStayAndHistoryGrows : Prop :=
  ∀ s t : State, step s = .next t → t.cfg = s.cfg ∧ s.history <+: t.history

/-- A step runs the decoded command: with a frame as the next request that decodes to a command (R81) and is that
command's frame byte for byte (R89), the step is the meaning of the command, on the state with the request taken; any
other bytes are refused. That a request may be a frame is the model's choice (log entry 5). -/
def Obligations.StepRunsTheDecodedCommand : Prop :=
  ∀ (s : State) (f : List Byte) (rest : List Request), s.cfg.legal = true → s.inbox = .frame f :: rest →
    (∀ i : Instr, decode s.cfg f = some i → encode s.cfg i = f → step s = exec i { s with inbox := rest }) ∧
    ((∀ i : Instr, decode s.cfg f = some i → encode s.cfg i ≠ f) → step s = .refused .notACommandFrame)

/-- R18, R280: a host operation as the next request runs by its meaning with the request taken; with no request the
block waits; an illegal configuration is refused (U14, U15, R100; what is illegal beyond them, `T_RESET_LOW`, the fixed
parameters and the offsets, is log entry 20). The requests as a list are log entry 5's form. -/
def Obligations.StepServesTheHost : Prop :=
  ∀ s : State,
    (s.cfg.legal = false → step s = .refused .illegalConfiguration) ∧
    (s.cfg.legal = true → s.inbox = [] → step s = .next s) ∧
    (∀ (o : HostOp) (rest : List Request), s.cfg.legal = true → s.inbox = .op o :: rest →
      step s = execOp o { s with inbox := rest })

/-- R224: every transition of `ACQ`, and no other: after a step `ACQ` holds a state the table lists for the request. For a
request that is a frame, the states are those of the operation that sends it, which is the model's choice (log entries
5 and 6); R224 itself speaks of the operations and of the block's reset. -/
def Obligations.AcqMovesOnlyAsTheTableSays : Prop :=
  ∀ (s t : State) (r : Request) (rest : List Request), s.inbox = r :: rest → step s = .next t →
    t.acq ∈ r.successors s.cfg s.acq

/-- R81, R85, R14: every frame a step transmits is the frame of a command the block emits, a register frame that
of a named register, and by the classes of R81 it is no other command's, so NOP, RESET, GANCAL, LOCK and UNLOCK are
never transmitted; a reply has its frame's length. Frame requests are in this by the model's choice
of what a wire command means (log entries 5, 6 and 7). -/
def Obligations.OnlyEmittedCommandsAreTransmitted : Prop :=
  ∀ (s t : State) (tx : List Byte) (rx : Option (List Byte)), step s = .next t → .xchg tx rx ∈ newEvents s t →
    (∃ i : Instr, instrEmitted i = true ∧ i.wellFormed s.cfg = true ∧ tx = encode s.cfg i ∧
      decode s.cfg tx = some i) ∧
    (∀ l : List Byte, rx = some l → l.length = tx.length)

/-- R60, R172: within an operation of a legal configuration every WREG exchange that was done is followed at once by an
RREG exchange of the same address. -/
def Obligations.EveryWriteIsFollowedByItsVerifyRead : Prop :=
  ∀ (o : HostOp) (s t : State) (pre post : List Event) (a : Addr) (v : Byte) (rx : List Byte),
    s.cfg.legal = true → execOp o s = .next t →
    newEvents s t = pre ++ .xchg (frameWR s.cfg a v) (some rx) :: post →
    ∃ rx' post', post = .xchg (frameRR s.cfg a) rx' :: post'

/-- R191, R20, R172: a step changes a shadow in two ways only: the block's reset leaves it no value; or a write+verify
cycle responded `Ok`, whose two events are the WREG exchange of the value the shadow now holds to that register and
the verify read of it, with that value in its reply. Frame requests are in this by the
model's choice of what a wire command means (log entries 5, 6 and 8). -/
def Obligations.ShadowsChangeOnlyByAVerifiedWrite : Prop :=
  ∀ (s t : State) (q : RegId), step s = .next t → t.sh.get q ≠ s.sh.get q →
    (t.sh.get q = none ∧ ∃ rest, s.inbox = .blockReset :: rest ∨ ∃ o n, s.inbox = .blockResetDuring o n :: rest) ∨
    (∃ (v : Byte) (rx0 rx : List Byte), t.sh.get q = some v ∧ t.response = some (.ok .unit) ∧
      newEvents s t = [.xchg (frameWR s.cfg (s.cfg.regMap.addr q) v) (some rx0),
        .xchg (frameRR s.cfg (s.cfg.regMap.addr q)) (some rx)] ∧ rx[2]? = some v)

/-! ### The field codecs at the host port -/

/-- R133 to R152: what the ENC_* and DEC_* host operations answer, in every `ACQ` state, changing nothing else: the
byte the encoder assembles, what the decoder gives for the byte, and for PGA, MODE3 and STATUS the flags bit by bit
(R33, R37, R40). An
encoder's unknown options are `Obligations.UnknownOptionEndsASetterBeforeAnyExchange`. -/
def Obligations.FieldOperationsAnswerByTheirFunctions : Prop :=
  ∀ (s : State) (v : Byte),
    (∀ pos neg, encInpmux pos neg s = (.ok v, s) → (HostOp.encInpmux pos neg).answers s (.ok (.byte v))) ∧
    (∀ b g, encPga b g s = (.ok v, s) → (HostOp.encPga b g).answers s (.ok (.byte v))) ∧
    (∀ rate filter, encMode0 rate filter s = (.ok v, s) → (HostOp.encMode0 rate filter).answers s (.ok (.byte v))) ∧
    (∀ chop conv delay, encMode1 chop conv delay s = (.ok v, s) →
      (HostOp.encMode1 chop conv delay).answers s (.ok (.byte v))) ∧
    (∀ e pos neg, encRef e pos neg s = (.ok v, s) → (HostOp.encRef e pos neg).answers s (.ok (.byte v))) ∧
    (∀ f, (HostOp.encMode3 f).answers s (.ok (.byte (mode3Byte f)))) ∧
    (HostOp.decInpmux v).answers s (toResponse (decInpmux v s).1) ∧
    (HostOp.decMode0 v).answers s (toResponse (decMode0 v s).1) ∧
    (HostOp.decMode1 v).answers s (toResponse (decMode1 v s).1) ∧
    (HostOp.decRef v).answers s (toResponse (decRef v s).1) ∧
    (decPga v s).1 = .ok (.pga (v.getLsbD 7) (2 ^ (v.extractLsb' 0 3).toNat)) ∧
    (HostOp.decPga v).answers s (.ok (.pga (v.getLsbD 7) (2 ^ (v.extractLsb' 0 3).toNat))) ∧
    (∃ f : Mode3Flags, f = mode3Flags v ∧ (HostOp.decMode3 v).answers s (.ok (.mode3 f)) ∧
      f.pwdn = v.getLsbD 7 ∧ f.statenb = v.getLsbD 6 ∧ f.crcenb = v.getLsbD 5 ∧ f.spitim = v.getLsbD 4 ∧
      f.gpio3 = v.getLsbD 3 ∧ f.gpio2 = v.getLsbD 2 ∧ f.gpio1 = v.getLsbD 1 ∧ f.gpio0 = v.getLsbD 0) ∧
    (∃ f : StatusFlags, f = statusFlags v ∧ (HostOp.decStatus v).answers s (.ok (.status f)) ∧
      f.lock = v.getLsbD 7 ∧ f.crcerr = v.getLsbD 6 ∧ f.pgalAlm = v.getLsbD 5 ∧ f.pgahAlm = v.getLsbD 4 ∧
      f.reflAlm = v.getLsbD 3 ∧ f.drdy = v.getLsbD 2 ∧ f.clock = v.getLsbD 1 ∧ f.reset = v.getLsbD 0)
end

