-- ==== Sys2Proof/Laws/State.lean ====
section
/-!
SUPPORT. One lemma per field per update of the state, so that no later proof unfolds a record update; and what
the shadow store reads back.
-/

namespace Sys2Proof.Machine

@[simp] theorem setAcq_sh (s : State) (a : Acq) : (s.setAcq a).sh = s.sh := rfl
@[simp] theorem setAcq_acq (s : State) (a : Acq) : (s.setAcq a).acq = a := rfl
@[simp] theorem setAcq_polls (s : State) (a : Acq) : (s.setAcq a).polls = s.polls := rfl
@[simp] theorem setAcq_resetN (s : State) (a : Acq) : (s.setAcq a).resetN = s.resetN := rfl
@[simp] theorem setAcq_pwdnHold (s : State) (a : Acq) : (s.setAcq a).pwdnHold = s.pwdnHold := rfl
@[simp] theorem setAcq_startPin (s : State) (a : Acq) : (s.setAcq a).startPin = s.startPin := rfl
@[simp] theorem setAcq_cfg (s : State) (a : Acq) : (s.setAcq a).cfg = s.cfg := rfl
@[simp] theorem setAcq_response (s : State) (a : Acq) : (s.setAcq a).response = s.response := rfl
@[simp] theorem setAcq_history (s : State) (a : Acq) : (s.setAcq a).history = s.history := rfl
@[simp] theorem setAcq_replies (s : State) (a : Acq) : (s.setAcq a).replies = s.replies := rfl
@[simp] theorem setAcq_samples (s : State) (a : Acq) : (s.setAcq a).samples = s.samples := rfl
@[simp] theorem setAcq_tick (s : State) (a : Acq) : (s.setAcq a).tick = s.tick := rfl
@[simp] theorem setAcq_waitDone (s : State) (a : Acq) : (s.setAcq a).waitDone = s.waitDone := rfl
@[simp] theorem setAcq_inbox (s : State) (a : Acq) : (s.setAcq a).inbox = s.inbox := rfl

@[simp] theorem setPolls_sh (s : State) (n : Nat) : (s.setPolls n).sh = s.sh := rfl
@[simp] theorem setPolls_acq (s : State) (n : Nat) : (s.setPolls n).acq = s.acq := rfl
@[simp] theorem setPolls_polls (s : State) (n : Nat) : (s.setPolls n).polls = n := rfl
@[simp] theorem setPolls_resetN (s : State) (n : Nat) : (s.setPolls n).resetN = s.resetN := rfl
@[simp] theorem setPolls_pwdnHold (s : State) (n : Nat) : (s.setPolls n).pwdnHold = s.pwdnHold := rfl
@[simp] theorem setPolls_startPin (s : State) (n : Nat) : (s.setPolls n).startPin = s.startPin := rfl
@[simp] theorem setPolls_cfg (s : State) (n : Nat) : (s.setPolls n).cfg = s.cfg := rfl
@[simp] theorem setPolls_response (s : State) (n : Nat) : (s.setPolls n).response = s.response := rfl
@[simp] theorem setPolls_history (s : State) (n : Nat) : (s.setPolls n).history = s.history := rfl
@[simp] theorem setPolls_replies (s : State) (n : Nat) : (s.setPolls n).replies = s.replies := rfl
@[simp] theorem setPolls_samples (s : State) (n : Nat) : (s.setPolls n).samples = s.samples := rfl
@[simp] theorem setPolls_tick (s : State) (n : Nat) : (s.setPolls n).tick = s.tick := rfl
@[simp] theorem setPolls_waitDone (s : State) (n : Nat) : (s.setPolls n).waitDone = s.waitDone := rfl
@[simp] theorem setPolls_inbox (s : State) (n : Nat) : (s.setPolls n).inbox = s.inbox := rfl

@[simp] theorem setWaitDone_sh (s : State) (b : Bool) : (s.setWaitDone b).sh = s.sh := rfl
@[simp] theorem setWaitDone_acq (s : State) (b : Bool) : (s.setWaitDone b).acq = s.acq := rfl
@[simp] theorem setWaitDone_polls (s : State) (b : Bool) : (s.setWaitDone b).polls = s.polls := rfl
@[simp] theorem setWaitDone_resetN (s : State) (b : Bool) : (s.setWaitDone b).resetN = s.resetN := rfl
@[simp] theorem setWaitDone_pwdnHold (s : State) (b : Bool) : (s.setWaitDone b).pwdnHold = s.pwdnHold := rfl
@[simp] theorem setWaitDone_startPin (s : State) (b : Bool) : (s.setWaitDone b).startPin = s.startPin := rfl
@[simp] theorem setWaitDone_cfg (s : State) (b : Bool) : (s.setWaitDone b).cfg = s.cfg := rfl
@[simp] theorem setWaitDone_response (s : State) (b : Bool) : (s.setWaitDone b).response = s.response := rfl
@[simp] theorem setWaitDone_history (s : State) (b : Bool) : (s.setWaitDone b).history = s.history := rfl
@[simp] theorem setWaitDone_replies (s : State) (b : Bool) : (s.setWaitDone b).replies = s.replies := rfl
@[simp] theorem setWaitDone_samples (s : State) (b : Bool) : (s.setWaitDone b).samples = s.samples := rfl
@[simp] theorem setWaitDone_tick (s : State) (b : Bool) : (s.setWaitDone b).tick = s.tick := rfl
@[simp] theorem setWaitDone_waitDone (s : State) (b : Bool) : (s.setWaitDone b).waitDone = b := rfl
@[simp] theorem setWaitDone_inbox (s : State) (b : Bool) : (s.setWaitDone b).inbox = s.inbox := rfl

@[simp] theorem setShadow_sh (s : State) (r : RegId) (v : Byte) : (s.setShadow r v).sh = s.sh.set r v := rfl
@[simp] theorem setShadow_acq (s : State) (r : RegId) (v : Byte) : (s.setShadow r v).acq = s.acq := rfl
@[simp] theorem setShadow_polls (s : State) (r : RegId) (v : Byte) : (s.setShadow r v).polls = s.polls := rfl
@[simp] theorem setShadow_resetN (s : State) (r : RegId) (v : Byte) : (s.setShadow r v).resetN = s.resetN := rfl
@[simp] theorem setShadow_pwdnHold (s : State) (r : RegId) (v : Byte) : (s.setShadow r v).pwdnHold = s.pwdnHold := rfl
@[simp] theorem setShadow_startPin (s : State) (r : RegId) (v : Byte) : (s.setShadow r v).startPin = s.startPin := rfl
@[simp] theorem setShadow_cfg (s : State) (r : RegId) (v : Byte) : (s.setShadow r v).cfg = s.cfg := rfl
@[simp] theorem setShadow_response (s : State) (r : RegId) (v : Byte) : (s.setShadow r v).response = s.response := rfl
@[simp] theorem setShadow_history (s : State) (r : RegId) (v : Byte) : (s.setShadow r v).history = s.history := rfl
@[simp] theorem setShadow_replies (s : State) (r : RegId) (v : Byte) : (s.setShadow r v).replies = s.replies := rfl
@[simp] theorem setShadow_samples (s : State) (r : RegId) (v : Byte) : (s.setShadow r v).samples = s.samples := rfl
@[simp] theorem setShadow_tick (s : State) (r : RegId) (v : Byte) : (s.setShadow r v).tick = s.tick := rfl
@[simp] theorem setShadow_waitDone (s : State) (r : RegId) (v : Byte) : (s.setShadow r v).waitDone = s.waitDone := rfl
@[simp] theorem setShadow_inbox (s : State) (r : RegId) (v : Byte) : (s.setShadow r v).inbox = s.inbox := rfl

@[simp] theorem record_sh (s : State) (e : Event) : (s.record e).sh = s.sh := rfl
@[simp] theorem record_acq (s : State) (e : Event) : (s.record e).acq = s.acq := rfl
@[simp] theorem record_polls (s : State) (e : Event) : (s.record e).polls = s.polls := rfl
@[simp] theorem record_resetN (s : State) (e : Event) : (s.record e).resetN = s.resetN := rfl
@[simp] theorem record_pwdnHold (s : State) (e : Event) : (s.record e).pwdnHold = s.pwdnHold := rfl
@[simp] theorem record_startPin (s : State) (e : Event) : (s.record e).startPin = s.startPin := rfl
@[simp] theorem record_cfg (s : State) (e : Event) : (s.record e).cfg = s.cfg := rfl
@[simp] theorem record_response (s : State) (e : Event) : (s.record e).response = s.response := rfl
@[simp] theorem record_history (s : State) (e : Event) : (s.record e).history = s.history ++ [e] := rfl
@[simp] theorem record_replies (s : State) (e : Event) : (s.record e).replies = s.replies := rfl
@[simp] theorem record_samples (s : State) (e : Event) : (s.record e).samples = s.samples := rfl
@[simp] theorem record_tick (s : State) (e : Event) : (s.record e).tick = s.tick := rfl
@[simp] theorem record_waitDone (s : State) (e : Event) : (s.record e).waitDone = s.waitDone := rfl
@[simp] theorem record_inbox (s : State) (e : Event) : (s.record e).inbox = s.inbox := rfl

@[simp] theorem setLine_sh (s : State) (l : Line) (b : Bool) : (s.setLine l b).sh = s.sh := by cases l <;> rfl
@[simp] theorem setLine_acq (s : State) (l : Line) (b : Bool) : (s.setLine l b).acq = s.acq := by cases l <;> rfl
@[simp] theorem setLine_polls (s : State) (l : Line) (b : Bool) : (s.setLine l b).polls = s.polls := by cases l <;> rfl
@[simp] theorem setLine_cfg (s : State) (l : Line) (b : Bool) : (s.setLine l b).cfg = s.cfg := by cases l <;> rfl
@[simp] theorem setLine_response (s : State) (l : Line) (b : Bool) : (s.setLine l b).response = s.response := by cases l <;> rfl
@[simp] theorem setLine_history (s : State) (l : Line) (b : Bool) : (s.setLine l b).history = s.history := by cases l <;> rfl
@[simp] theorem setLine_replies (s : State) (l : Line) (b : Bool) : (s.setLine l b).replies = s.replies := by cases l <;> rfl
@[simp] theorem setLine_samples (s : State) (l : Line) (b : Bool) : (s.setLine l b).samples = s.samples := by cases l <;> rfl
@[simp] theorem setLine_tick (s : State) (l : Line) (b : Bool) : (s.setLine l b).tick = s.tick := by cases l <;> rfl
@[simp] theorem setLine_waitDone (s : State) (l : Line) (b : Bool) : (s.setLine l b).waitDone = s.waitDone := by cases l <;> rfl
@[simp] theorem setLine_inbox (s : State) (l : Line) (b : Bool) : (s.setLine l b).inbox = s.inbox := by cases l <;> rfl

@[simp] theorem setLine_resetN_resetN (s : State) (b : Bool) : (s.setLine .resetN b).resetN = b := rfl
@[simp] theorem setLine_resetN_pwdnHold (s : State) (b : Bool) : (s.setLine .resetN b).pwdnHold = s.pwdnHold := rfl
@[simp] theorem setLine_resetN_startPin (s : State) (b : Bool) : (s.setLine .resetN b).startPin = s.startPin := rfl
@[simp] theorem setLine_pwdnHold_resetN (s : State) (b : Bool) : (s.setLine .pwdnHold b).resetN = s.resetN := rfl
@[simp] theorem setLine_pwdnHold_pwdnHold (s : State) (b : Bool) : (s.setLine .pwdnHold b).pwdnHold = b := rfl
@[simp] theorem setLine_pwdnHold_startPin (s : State) (b : Bool) : (s.setLine .pwdnHold b).startPin = s.startPin := rfl
@[simp] theorem setLine_startPin_resetN (s : State) (b : Bool) : (s.setLine .startPin b).resetN = s.resetN := rfl
@[simp] theorem setLine_startPin_pwdnHold (s : State) (b : Bool) : (s.setLine .startPin b).pwdnHold = s.pwdnHold := rfl
@[simp] theorem setLine_startPin_startPin (s : State) (b : Bool) : (s.setLine .startPin b).startPin = b := rfl

@[simp] theorem afterXchg_sh (s : State) (tx : List Byte) : (s.afterXchg tx).sh = s.sh := rfl
@[simp] theorem afterXchg_acq (s : State) (tx : List Byte) : (s.afterXchg tx).acq = s.acq := rfl
@[simp] theorem afterXchg_polls (s : State) (tx : List Byte) : (s.afterXchg tx).polls = s.polls := rfl
@[simp] theorem afterXchg_resetN (s : State) (tx : List Byte) : (s.afterXchg tx).resetN = s.resetN := rfl
@[simp] theorem afterXchg_pwdnHold (s : State) (tx : List Byte) : (s.afterXchg tx).pwdnHold = s.pwdnHold := rfl
@[simp] theorem afterXchg_startPin (s : State) (tx : List Byte) : (s.afterXchg tx).startPin = s.startPin := rfl
@[simp] theorem afterXchg_cfg (s : State) (tx : List Byte) : (s.afterXchg tx).cfg = s.cfg := rfl
@[simp] theorem afterXchg_response (s : State) (tx : List Byte) : (s.afterXchg tx).response = s.response := rfl
@[simp] theorem afterXchg_history (s : State) (tx : List Byte) : (s.afterXchg tx).history = s.history ++ [.xchg tx (s.answer tx.length)] := rfl
@[simp] theorem afterXchg_replies (s : State) (tx : List Byte) : (s.afterXchg tx).replies = s.replies.tail := rfl
@[simp] theorem afterXchg_samples (s : State) (tx : List Byte) : (s.afterXchg tx).samples = s.samples := rfl
@[simp] theorem afterXchg_tick (s : State) (tx : List Byte) : (s.afterXchg tx).tick = s.tick + 1 := rfl
@[simp] theorem afterXchg_waitDone (s : State) (tx : List Byte) : (s.afterXchg tx).waitDone = s.waitDone := rfl
@[simp] theorem afterXchg_inbox (s : State) (tx : List Byte) : (s.afterXchg tx).inbox = s.inbox := rfl

@[simp] theorem afterSample_sh (s : State) : (s.afterSample).sh = s.sh := rfl
@[simp] theorem afterSample_acq (s : State) : (s.afterSample).acq = s.acq := rfl
@[simp] theorem afterSample_polls (s : State) : (s.afterSample).polls = s.polls := rfl
@[simp] theorem afterSample_resetN (s : State) : (s.afterSample).resetN = s.resetN := rfl
@[simp] theorem afterSample_pwdnHold (s : State) : (s.afterSample).pwdnHold = s.pwdnHold := rfl
@[simp] theorem afterSample_startPin (s : State) : (s.afterSample).startPin = s.startPin := rfl
@[simp] theorem afterSample_cfg (s : State) : (s.afterSample).cfg = s.cfg := rfl
@[simp] theorem afterSample_response (s : State) : (s.afterSample).response = s.response := rfl
@[simp] theorem afterSample_history (s : State) : (s.afterSample).history = s.history ++ [.sampleDrdy s.level] := rfl
@[simp] theorem afterSample_replies (s : State) : (s.afterSample).replies = s.replies := rfl
@[simp] theorem afterSample_samples (s : State) : (s.afterSample).samples = s.samples.tail := rfl
@[simp] theorem afterSample_tick (s : State) : (s.afterSample).tick = s.tick + 1 := rfl
@[simp] theorem afterSample_waitDone (s : State) : (s.afterSample).waitDone = s.waitDone := rfl
@[simp] theorem afterSample_inbox (s : State) : (s.afterSample).inbox = s.inbox := rfl

@[simp] theorem delay_sh (s : State) (d : Duration) : (s.delay d).sh = s.sh := rfl
@[simp] theorem delay_acq (s : State) (d : Duration) : (s.delay d).acq = s.acq := rfl
@[simp] theorem delay_polls (s : State) (d : Duration) : (s.delay d).polls = s.polls := rfl
@[simp] theorem delay_resetN (s : State) (d : Duration) : (s.delay d).resetN = s.resetN := rfl
@[simp] theorem delay_pwdnHold (s : State) (d : Duration) : (s.delay d).pwdnHold = s.pwdnHold := rfl
@[simp] theorem delay_startPin (s : State) (d : Duration) : (s.delay d).startPin = s.startPin := rfl
@[simp] theorem delay_cfg (s : State) (d : Duration) : (s.delay d).cfg = s.cfg := rfl
@[simp] theorem delay_response (s : State) (d : Duration) : (s.delay d).response = s.response := rfl
@[simp] theorem delay_history (s : State) (d : Duration) : (s.delay d).history = s.history ++ [.delay d] := rfl
@[simp] theorem delay_replies (s : State) (d : Duration) : (s.delay d).replies = s.replies := rfl
@[simp] theorem delay_samples (s : State) (d : Duration) : (s.delay d).samples = s.samples := rfl
@[simp] theorem delay_tick (s : State) (d : Duration) : (s.delay d).tick = s.tick := rfl
@[simp] theorem delay_waitDone (s : State) (d : Duration) : (s.delay d).waitDone = s.waitDone := rfl
@[simp] theorem delay_inbox (s : State) (d : Duration) : (s.delay d).inbox = s.inbox := rfl

@[simp] theorem leaveTo_sh (s : State) (a : Acq) : (leaveTo a s).sh = s.sh := rfl
@[simp] theorem leaveTo_acq (s : State) (a : Acq) : (leaveTo a s).acq = a := rfl
@[simp] theorem leaveTo_polls (s : State) (a : Acq) : (leaveTo a s).polls = s.polls := rfl
@[simp] theorem leaveTo_resetN (s : State) (a : Acq) : (leaveTo a s).resetN = s.resetN := rfl
@[simp] theorem leaveTo_pwdnHold (s : State) (a : Acq) : (leaveTo a s).pwdnHold = s.pwdnHold := rfl
@[simp] theorem leaveTo_startPin (s : State) (a : Acq) : (leaveTo a s).startPin = s.startPin := rfl
@[simp] theorem leaveTo_cfg (s : State) (a : Acq) : (leaveTo a s).cfg = s.cfg := rfl
@[simp] theorem leaveTo_response (s : State) (a : Acq) : (leaveTo a s).response = s.response := rfl
@[simp] theorem leaveTo_history (s : State) (a : Acq) : (leaveTo a s).history = s.history := rfl
@[simp] theorem leaveTo_replies (s : State) (a : Acq) : (leaveTo a s).replies = s.replies := rfl
@[simp] theorem leaveTo_samples (s : State) (a : Acq) : (leaveTo a s).samples = s.samples := rfl
@[simp] theorem leaveTo_tick (s : State) (a : Acq) : (leaveTo a s).tick = s.tick := rfl
@[simp] theorem leaveTo_waitDone (s : State) (a : Acq) : (leaveTo a s).waitDone = s.waitDone := rfl
@[simp] theorem leaveTo_inbox (s : State) (a : Acq) : (leaveTo a s).inbox = s.inbox := rfl

@[simp] theorem blockReset_sh (s : State) : (s.blockReset).sh = Shadows.empty := rfl
@[simp] theorem blockReset_acq (s : State) : (s.blockReset).acq = .idle := rfl
@[simp] theorem blockReset_polls (s : State) : (s.blockReset).polls = 0 := rfl
@[simp] theorem blockReset_resetN (s : State) : (s.blockReset).resetN = true := rfl
@[simp] theorem blockReset_pwdnHold (s : State) : (s.blockReset).pwdnHold = true := rfl
@[simp] theorem blockReset_startPin (s : State) : (s.blockReset).startPin = false := rfl
@[simp] theorem blockReset_cfg (s : State) : (s.blockReset).cfg = s.cfg := rfl
@[simp] theorem blockReset_response (s : State) : (s.blockReset).response = none := rfl
@[simp] theorem blockReset_history (s : State) : (s.blockReset).history = s.history := rfl
@[simp] theorem blockReset_replies (s : State) : (s.blockReset).replies = s.replies := rfl
@[simp] theorem blockReset_samples (s : State) : (s.blockReset).samples = s.samples := rfl
@[simp] theorem blockReset_tick (s : State) : (s.blockReset).tick = s.tick := rfl
@[simp] theorem blockReset_waitDone (s : State) : (s.blockReset).waitDone = false := rfl
@[simp] theorem blockReset_inbox (s : State) : (s.blockReset).inbox = s.inbox := rfl

/-! ### Reading the environment does not depend on the registers -/

@[simp] theorem setAcq_answer (s : State) (a : Acq) (n : Nat) : (s.setAcq a).answer n = s.answer n := rfl
@[simp] theorem setPolls_answer (s : State) (k n : Nat) : (s.setPolls k).answer n = s.answer n := rfl
@[simp] theorem setWaitDone_answer (s : State) (b : Bool) (n : Nat) : (s.setWaitDone b).answer n = s.answer n := rfl
@[simp] theorem leaveTo_answer (s : State) (a : Acq) (n : Nat) : (leaveTo a s).answer n = s.answer n := rfl
@[simp] theorem setAcq_level (s : State) (a : Acq) : (s.setAcq a).level = s.level := rfl
@[simp] theorem setPolls_level (s : State) (k : Nat) : (s.setPolls k).level = s.level := rfl
@[simp] theorem setWaitDone_level (s : State) (b : Bool) : (s.setWaitDone b).level = s.level := rfl

/-! ### The shadows -/

theorem shadows_get_set_self (sh : Shadows) (r : RegId) (v : Byte) (h : shadowed r = true) :
    (sh.set r v).get r = some v := by
  cases r <;> first | rfl | exact absurd h (by decide)

theorem shadows_get_set_other (sh : Shadows) (r q : RegId) (v : Byte) (h : q ≠ r) :
    (sh.set r v).get q = sh.get q := by
  cases r <;> cases q <;> first | rfl | exact absurd rfl h

theorem shadows_set_unshadowed (sh : Shadows) (r : RegId) (v : Byte) (h : shadowed r = false) :
    sh.set r v = sh := by
  cases r <;> first | rfl | exact absurd h (by decide)

theorem shadows_get_unshadowed (sh : Shadows) (r : RegId) (h : shadowed r = false) : sh.get r = none := by
  cases r <;> first | rfl | exact absurd h (by decide)

@[simp] theorem shadows_get_empty (r : RegId) : Shadows.empty.get r = none := by cases r <;> rfl

end Sys2Proof.Machine
end

