-- ==== Sys2Proof/Laws/Results.lean ====
section
/-!
SUPPORT. How results compose: `done`, `raise`, `andThen`, `mapValue`, `known`, `respond`, `accept`.
-/

namespace Sys2Proof.Machine

variable {α β : Type}

@[simp] theorem andThen_ok (v : α) (s : State) (k : α → State → Res β) :
    Res.andThen (.ok v, s) k = k v s := rfl

@[simp] theorem andThen_error (e : Err) (s : State) (k : α → State → Res β) :
    Res.andThen (.error e, s) k = (.error e, s) := rfl

@[simp] theorem andThen_done (v : α) (s : State) (k : α → State → Res β) : (done v s).andThen k = k v s := rfl

@[simp] theorem andThen_raise (e : Err) (p : Phase) (s : State) (k : α → State → Res β) :
    (raise e p s : Res α).andThen k = raise e p s := rfl

@[simp] theorem mapValue_ok (f : α → β) (v : α) (s : State) : Res.mapValue f (.ok v, s) = (.ok (f v), s) := rfl

@[simp] theorem mapValue_error (f : α → β) (e : Err) (s : State) :
    Res.mapValue f (.error e, s) = (.error e, s) := rfl

@[simp] theorem mapValue_done (f : α → β) (v : α) (s : State) : (done v s).mapValue f = done (f v) s := rfl

@[simp] theorem mapValue_raise (f : α → β) (e : Err) (p : Phase) (s : State) :
    (raise e p s : Res α).mapValue f = raise e p s := rfl

/-- `andThen` ends in one of two ways: the first part failed, or the second part ran from where it ended. -/
theorem andThen_cases (r : Res α) (k : α → State → Res β) :
    (∃ e s, r = (.error e, s) ∧ r.andThen k = (.error e, s)) ∨ (∃ v s, r = (.ok v, s) ∧ r.andThen k = k v s) := by
  obtain ⟨x, s⟩ := r
  cases x with
  | error e => exact .inl ⟨e, s, rfl, rfl⟩
  | ok v => exact .inr ⟨v, s, rfl, rfl⟩

/-- The state of a mapped result is the state of the result. -/
@[simp] theorem mapValue_snd (f : α → β) (r : Res α) : (r.mapValue f).2 = r.2 := by
  obtain ⟨x, s⟩ := r; cases x <;> rfl

/-- A mapped result fails exactly as the result does. -/
theorem mapValue_fst (f : α → β) (r : Res α) : (r.mapValue f).1 = r.1.map f := by
  obtain ⟨x, s⟩ := r; cases x <;> rfl

@[simp] theorem known_some (u : Unknown) (v : α) (s : State) : known u (some v) s = done v s := rfl

@[simp] theorem known_none (u : Unknown) (s : State) :
    known u (none : Option α) s = (.error (.unknownIdentifier u), s) := rfl

/-- A look-up leaves the state alone. -/
@[simp] theorem known_snd (u : Unknown) (x : Option α) (s : State) : (known u x s).2 = s := by cases x <;> rfl

/-- Error entry by the table of R262, error by error. -/
@[simp] theorem raise_unknownIdentifier (u : Unknown) (p : Phase) (s : State) :
    (raise (.unknownIdentifier u) p s : Res α) = (.error (.unknownIdentifier u), s) := rfl

@[simp] theorem raise_verificationFailed (r : RegId) (v got : Byte) (p : Phase) (s : State) :
    (raise (.verificationFailed r v got) p s : Res α) = (.error (.verificationFailed r v got), s) := rfl

@[simp] theorem raise_pgaAlarm (p : Phase) (s : State) :
    (raise .pgaAlarm p s : Res α) = (.error .pgaAlarm, s.setAcq .fault) := rfl

@[simp] theorem raise_timeout (p : Phase) (s : State) :
    (raise .timeout p s : Res α) = (.error .timeout, s.setAcq .fault) := rfl

@[simp] theorem raise_transportFailure_control (s : State) :
    (raise .transportFailure .control s : Res α) = (.error .transportFailure, s) := rfl

@[simp] theorem raise_transportFailure_acquisition (s : State) :
    (raise .transportFailure .acquisition s : Res α) = (.error .transportFailure, s.setAcq .fault) := rfl

/-- `respond` always answers a next state: the result's state with its response. -/
theorem respond_eq (r : Res Value) : respond r = .next { r.2 with response := some (toResponse r.1) } := rfl

/-- What an accepted or refused operation answers. -/
theorem accept_eq_next {ok : Bool} {k : Host.Outcome State Fault Refusal} {t : State} :
    accept ok k = .next t ↔ ok = true ∧ k = .next t := by
  cases ok <;> simp [accept]

@[simp] theorem accept_true (k : Host.Outcome State Fault Refusal) : accept true k = k := rfl

@[simp] theorem accept_false (k : Host.Outcome State Fault Refusal) : accept false k = .refused .notAccepted := rfl

theorem withReference_eq_next {n : Nat} {s t : State} {k : Host.Outcome State Fault Refusal} :
    withReference n s k = .next t ↔ referenceInRange s.cfg n = true ∧ k = .next t := by
  unfold withReference
  split <;> simp_all

theorem respond_eq_next {r : Res Value} {t : State} :
    respond r = .next t ↔ t = { r.2 with response := some (toResponse r.1) } := by
  simp only [respond, Host.Outcome.next.injEq]
  exact eq_comm

end Sys2Proof.Machine
end

