-- ==== Sys2Proof/Laws/Ops.lean ====
section
/-!
SUPPORT. One lemma for each shared operation that says everything it can do; proofs cite these and do not unfold
the operations.
-/

namespace Sys2Proof.Machine

/-! ### Lengths -/

@[simp] theorem fillReply_length (tick n : Nat) (l : List Byte) : (fillReply tick n l).length = n := by
  simp [fillReply]

/-- A reply has the length of the frame that caused it (R14, R82). -/
theorem answer_length {s : State} {n : Nat} {rx : List Byte} (h : s.answer n = some rx) : rx.length = n := by
  unfold State.answer at h
  split at h
  · simp only [Option.some.injEq] at h; rw [← h]; simp
  · exact absurd h (by simp)
  · split at h
    · exact absurd h (by simp)
    · simp only [Option.some.injEq] at h; rw [← h]; simp

/-- A listed reply of the right length is the reply. -/
theorem fillReply_self (tick : Nat) (l : List Byte) : fillReply tick l.length l = l := by
  apply List.ext_getElem
  · simp
  · intro i h1 h2
    simp [fillReply, List.getD_eq_getElem?_getD, h2]

/-- The answer when the environment's next listed reply has the length of the frame. -/
theorem answer_of_bytes {s : State} {l : List Byte} {rest : List Reply} (h : s.replies = .bytes l :: rest) :
    s.answer l.length = some l := by
  simp [State.answer, h, fillReply_self]

/-- The answer when the environment's next listed answer is a failure. -/
theorem answer_of_fails {s : State} {rest : List Reply} (n : Nat) (h : s.replies = .fails :: rest) :
    s.answer n = none := by
  simp [State.answer, h]

@[simp] theorem frameRR_length (c : Config) (a : Addr) : (frameRR c a).length = 2 + c.nDummy := by
  simp [frameRR]; omega

@[simp] theorem frameWR_length (c : Config) (a : Addr) (v : Byte) : (frameWR c a v).length = 5 := rfl

@[simp] theorem frameC3_length (op : Byte) : (frameC3 op).length = 3 := rfl

@[simp] theorem frameC2_length (op : Byte) : (frameC2 op).length = 2 := rfl

@[simp] theorem frameRD_length (c : Config) : (frameRD c).length = 9 := rfl

/-! ### Exchanges and register transactions -/

/-- One exchange: a reply of the frame's length, or `TransportFailure`; either way the event is recorded. -/
theorem exchange_cases (p : Phase) (tx : List Byte) (s : State) :
    (∃ rx, s.answer tx.length = some rx ∧ rx.length = tx.length ∧ exchange p tx s = (.ok rx, s.afterXchg tx)) ∨
      (s.answer tx.length = none ∧ exchange p tx s = raise .transportFailure p (s.afterXchg tx)) := by
  unfold exchange
  cases h : s.answer tx.length with
  | some rx => exact .inl ⟨rx, rfl, answer_length h, rfl⟩
  | none => exact .inr ⟨rfl, rfl⟩

theorem exchange_some {p : Phase} {tx : List Byte} {s : State} {rx : List Byte}
    (h : s.answer tx.length = some rx) : exchange p tx s = (.ok rx, s.afterXchg tx) := by
  simp [exchange, h, done]

theorem exchange_none {p : Phase} {tx : List Byte} {s : State} (h : s.answer tx.length = none) :
    exchange p tx s = raise .transportFailure p (s.afterXchg tx) := by
  simp [exchange, h]

theorem memRead_some {p : Phase} {a : Addr} {s : State} {rx : List Byte}
    (h : s.answer (2 + s.cfg.nDummy) = some rx) :
    memRead p a s = (.ok (replyByte rx 2), s.afterXchg (frameRR s.cfg a)) := by
  simp [memRead, exchange_some (p := p) (tx := frameRR s.cfg a) (s := s) (rx := rx) (by simpa using h)]

theorem memRead_none {p : Phase} {a : Addr} {s : State} (h : s.answer (2 + s.cfg.nDummy) = none) :
    memRead p a s = raise .transportFailure p (s.afterXchg (frameRR s.cfg a)) := by
  simp [memRead, exchange_none (p := p) (tx := frameRR s.cfg a) (s := s) (by simpa using h)]

/-- The register read: the value byte, or `TransportFailure` (R52). -/
theorem memRead_cases (p : Phase) (a : Addr) (s : State) :
    (∃ rx, s.answer (2 + s.cfg.nDummy) = some rx ∧
        memRead p a s = (.ok (replyByte rx 2), s.afterXchg (frameRR s.cfg a))) ∨
      (s.answer (2 + s.cfg.nDummy) = none ∧
        memRead p a s = raise .transportFailure p (s.afterXchg (frameRR s.cfg a))) := by
  cases h : s.answer (2 + s.cfg.nDummy) with
  | some rx => exact .inl ⟨rx, rfl, memRead_some h⟩
  | none => exact .inr ⟨rfl, memRead_none h⟩

theorem memWrite_some {p : Phase} {a : Addr} {v : Byte} {s : State} {rx : List Byte}
    (h : s.answer 5 = some rx) : memWrite p a v s = (.ok (), s.afterXchg (frameWR s.cfg a v)) := by
  simp [memWrite, exchange_some (p := p) (tx := frameWR s.cfg a v) (s := s) (rx := rx) (by simpa using h)]

theorem memWrite_none {p : Phase} {a : Addr} {v : Byte} {s : State} (h : s.answer 5 = none) :
    memWrite p a v s = raise .transportFailure p (s.afterXchg (frameWR s.cfg a v)) := by
  simp [memWrite, exchange_none (p := p) (tx := frameWR s.cfg a v) (s := s) (by simpa using h)]

/-- The comparison of the write+verify cycle (R172). -/
theorem verify_cases (r : RegId) (v got : Byte) (s : State) :
    (got = v ∧ verify r v got s = (.ok (), s.setShadow r v)) ∨
      (got ≠ v ∧ r = .status ∧ verify r v got s = (.ok (), s)) ∨
      (got ≠ v ∧ r ≠ .status ∧ verify r v got s = (.error (.verificationFailed r v got), s)) := by
  unfold verify
  by_cases h : got = v
  · exact .inl ⟨h, by simp [h, done]⟩
  · by_cases h2 : r = .status
    · exact .inr (.inl ⟨h, h2, by simp [h, h2, done]⟩)
    · exact .inr (.inr ⟨h, h2, by simp [h, h2]⟩)

/-- The write+verify cycle: the first exchange fails, or the second does, or the values are compared (R172). -/
theorem writeRegister_cases (r : RegId) (v : Byte) (s : State) :
    (s.answer 5 = none ∧
        writeRegister r v s = (.error .transportFailure, s.afterXchg (frameWR s.cfg (s.cfg.regMap.addr r) v))) ∨
      (∃ rx, s.answer 5 = some rx ∧
        (((s.afterXchg (frameWR s.cfg (s.cfg.regMap.addr r) v)).answer (2 + s.cfg.nDummy) = none ∧
            writeRegister r v s = (.error .transportFailure,
              (s.afterXchg (frameWR s.cfg (s.cfg.regMap.addr r) v)).afterXchg (frameRR s.cfg (s.cfg.regMap.addr r)))) ∨
          ∃ rx', (s.afterXchg (frameWR s.cfg (s.cfg.regMap.addr r) v)).answer (2 + s.cfg.nDummy) = some rx' ∧
            writeRegister r v s = verify r v (replyByte rx' 2)
              ((s.afterXchg (frameWR s.cfg (s.cfg.regMap.addr r) v)).afterXchg (frameRR s.cfg (s.cfg.regMap.addr r))))) := by
  unfold writeRegister readRegister
  cases h : s.answer 5 with
  | none => exact .inl ⟨rfl, by simp [memWrite_none h]⟩
  | some rx =>
    refine .inr ⟨rx, rfl, ?_⟩
    rw [memWrite_some h]
    simp only [andThen_ok, afterXchg_cfg]
    rcases memRead_cases .control (s.cfg.regMap.addr r) (s.afterXchg (frameWR s.cfg (s.cfg.regMap.addr r) v)) with
      ⟨rx', h', e⟩ | ⟨h', e⟩
    · exact .inr ⟨rx', by simpa using h', by simp [e]⟩
    · exact .inl ⟨by simpa using h', by simp [e]⟩

/-! ### The pure codecs leave the state alone -/

@[simp] theorem regOperand_snd (n : Ident) (s : State) : (regOperand n s).2 = s := known_snd _ _ _

@[simp] theorem addrOperand_snd (a : Addr) (s : State) : (addrOperand a s).2 = s := known_snd _ _ _

/-- A chain of two steps that leave the state alone leaves it alone. -/
theorem andThen_snd_eq {α β : Type} {r : Res α} {k : α → State → Res β} {s : State} (hr : r.2 = s)
    (hk : ∀ v, (k v s).2 = s) : (r.andThen k).2 = s := by
  obtain ⟨x, t⟩ := r
  cases x with
  | error e => exact hr
  | ok v =>
    simp only at hr
    subst hr
    exact hk v

@[simp] theorem encInpmux_snd (p : Ident) (n : Option Ident) (s : State) : (encInpmux p n s).2 = s :=
  andThen_snd_eq (known_snd _ _ _) fun _ => by simp [encName]

@[simp] theorem decInpmux_snd (v : Byte) (s : State) : (decInpmux v s).2 = s :=
  andThen_snd_eq (known_snd _ _ _) fun _ => by simp [decCode]

@[simp] theorem encPga_snd (b : Bool) (g : Nat) (s : State) : (encPga b g s).2 = s := by
  simp [encPga, gainOperand]

@[simp] theorem decPga_snd (v : Byte) (s : State) : (decPga v s).2 = s := rfl

@[simp] theorem encMode0_snd (a b : Ident) (s : State) : (encMode0 a b s).2 = s :=
  andThen_snd_eq (known_snd _ _ _) fun _ => by simp [encName]

@[simp] theorem decMode0_snd (v : Byte) (s : State) : (decMode0 v s).2 = s :=
  andThen_snd_eq (known_snd _ _ _) fun _ => by simp [decCode]

@[simp] theorem encMode1_snd (a b c : Ident) (s : State) : (encMode1 a b c s).2 = s :=
  andThen_snd_eq (known_snd _ _ _) fun _ => andThen_snd_eq (known_snd _ _ _) fun _ => by simp [encName]

@[simp] theorem decMode1_snd (v : Byte) (s : State) : (decMode1 v s).2 = s :=
  andThen_snd_eq (known_snd _ _ _) fun _ => andThen_snd_eq (known_snd _ _ _) fun _ => by simp [decCode]

@[simp] theorem encRef_snd (e : Bool) (a b : Ident) (s : State) : (encRef e a b s).2 = s :=
  andThen_snd_eq (known_snd _ _ _) fun _ => by simp [encName]

@[simp] theorem decRef_snd (v : Byte) (s : State) : (decRef v s).2 = s :=
  andThen_snd_eq (known_snd _ _ _) fun _ => by simp [decCode]

@[simp] theorem raw24ToMv_snd (raw : Sample) (m g : Nat) (s : State) : (raw24ToMv raw m g s).2 = s := by
  simp [raw24ToMv, gainOperand]

/-! ### The phases -/

/-- ARM past its `require` (R210). -/
theorem arm_cases (s : State) :
    (∃ rx, s.answer 3 = some rx ∧ arm s = (.ok (), leaveTo .armed (s.afterXchg (frameC3 s.cfg.opStart)))) ∨
      (s.answer 3 = none ∧
        arm s = (.error .transportFailure, (s.afterXchg (frameC3 s.cfg.opStart)).setAcq .fault)) := by
  unfold arm
  rcases exchange_cases .acquisition (frameC3 s.cfg.opStart) s with ⟨rx, h, -, e⟩ | ⟨h, e⟩
  · exact .inl ⟨rx, by simpa using h, by simp [e, done]⟩
  · exact .inr ⟨by simpa using h, by simp [e]⟩

/-- One turn of the loop of WAIT_POLLED: the state before its exchange has one poll more. -/
theorem pollLoop_succ (n : Nat) (s : State) :
    (∃ rx, s.answer (2 + s.cfg.nDummy) = some rx ∧
        pollLoop (n + 1) s =
          if dataReady (replyByte rx 2) then
            (.ok (), (s.setPolls (s.polls + 1)).afterXchg (frameRR s.cfg (s.cfg.regMap.addr .status)))
          else pollLoop n ((s.setPolls (s.polls + 1)).afterXchg (frameRR s.cfg (s.cfg.regMap.addr .status)))) ∨
      (s.answer (2 + s.cfg.nDummy) = none ∧
        pollLoop (n + 1) s = (.error .transportFailure,
          ((s.setPolls (s.polls + 1)).afterXchg (frameRR s.cfg (s.cfg.regMap.addr .status))).setAcq .fault)) := by
  rw [pollLoop]
  rcases memRead_cases .acquisition (s.cfg.regMap.addr .status) (s.setPolls (s.polls + 1)) with
    ⟨rx, h, e⟩ | ⟨h, e⟩
  · exact .inl ⟨rx, by simpa using h, by simp [e, done]⟩
  · exact .inr ⟨by simpa using h, by simp [e]⟩

theorem pollLoop_zero (s : State) : pollLoop 0 s = (.error .timeout, s.setAcq .fault) := rfl

/-- One turn of the loop of WAIT_SIGNAL (R213). -/
theorem sampleLoop_succ (n : Nat) (s : State) :
    sampleLoop (n + 1) s =
      if s.level then sampleLoop n (s.setPolls (s.polls + 1)).afterSample
      else (.ok (), (s.setPolls (s.polls + 1)).afterSample) := by
  rw [sampleLoop]
  rfl

theorem sampleLoop_zero (s : State) : sampleLoop 0 s = (.error .timeout, s.setAcq .fault) := rfl

/-- READ_DATA past its `require` (R215). -/
theorem readData_cases (s : State) :
    (∃ rx, s.answer 9 = some rx ∧ rx.length = 9 ∧
        readData s = (.ok (parseRdata s.cfg rx s.layout.1 s.layout.2),
          leaveTo .dataAvailable (s.afterXchg (frameRD s.cfg)))) ∨
      (s.answer 9 = none ∧ readData s = (.error .transportFailure, (s.afterXchg (frameRD s.cfg)).setAcq .fault)) := by
  unfold readData
  rcases exchange_cases .acquisition (frameRD s.cfg) s with ⟨rx, h, l, e⟩ | ⟨h, e⟩
  · exact .inl ⟨rx, by simpa using h, by simpa using l, by simp [e, done]⟩
  · exact .inr ⟨by simpa using h, by simp [e]⟩

/-- FINISH past its `require`: alarm, or conversion to Idle, or a bad gain that leaves everything (R217). -/
theorem finish_cases (status : Option Byte) (raw : Sample) (m g : Nat) (s : State) :
    (alarm s.cfg status raw = true ∧ finish status raw m g s = (.error .pgaAlarm, s.setAcq .fault)) ∨
      (alarm s.cfg status raw = false ∧ (∃ k, gainCode g = some k) ∧
        finish status raw m g s = (.ok (.millivolts (millivolts raw m g)), leaveTo .idle s)) ∨
      (alarm s.cfg status raw = false ∧ gainCode g = none ∧
        finish status raw m g s = (.error (.unknownIdentifier (.number g)), s)) := by
  unfold finish raw24ToMv gainOperand
  cases ha : alarm s.cfg status raw
  · cases hg : gainCode g with
    | none => exact .inr (.inr ⟨rfl, rfl, by simp [Res.mapValue]⟩)
    | some k => exact .inr (.inl ⟨rfl, ⟨k, rfl⟩, by simp [done]⟩)
  · exact .inl ⟨rfl, by simp⟩

/-- STOP past its `require` (R220). -/
theorem stop_cases (s : State) :
    (∃ rx, s.answer 3 = some rx ∧ stop s = (.ok (), s.afterXchg (frameC3 s.cfg.opStop))) ∨
      (s.answer 3 = none ∧ stop s = (.error .transportFailure, s.afterXchg (frameC3 s.cfg.opStop))) := by
  unfold stop
  rcases exchange_cases .control (frameC3 s.cfg.opStop) s with ⟨rx, h, -, e⟩ | ⟨h, e⟩
  · exact .inl ⟨rx, by simpa using h, by simp [e]⟩
  · exact .inr ⟨by simpa using h, by simp [e]⟩

/-- A calibration past its `require` (R221, R223). -/
theorem calibrate_cases (op : Byte) (s : State) :
    (∃ rx, s.answer 2 = some rx ∧ calibrate op s = (.ok (), (s.afterXchg (frameC2 op)).delay .calSettle)) ∨
      (s.answer 2 = none ∧ calibrate op s = (.error .transportFailure, s.afterXchg (frameC2 op))) := by
  unfold calibrate
  rcases exchange_cases .control (frameC2 op) s with ⟨rx, h, -, e⟩ | ⟨h, e⟩
  · exact .inl ⟨rx, by simpa using h, by simp [e, done]⟩
  · exact .inr ⟨by simpa using h, by simp [e]⟩

/-- RESET_PULSE past its `require`: everything it changes (R222). -/
theorem resetPulse_eq (s : State) :
    resetPulse s = { s with
      acq := .idle, resetN := true,
      history := s.history ++ [.drive .resetN false, .delay .resetLow, .drive .resetN true] } := by
  simp [resetPulse, State.drive, State.delay, State.record, State.setLine, leaveTo, State.setAcq]

/-- An abandoned operation leaves the table of R280 on the events that happened (U24). -/
theorem abandon_fields (s t : State) (n : Nat) :
    (s.abandon t n).sh = Shadows.empty ∧ (s.abandon t n).acq = .idle ∧ (s.abandon t n).polls = 0 ∧
      (s.abandon t n).resetN = true ∧ (s.abandon t n).pwdnHold = true ∧ (s.abandon t n).startPin = false ∧
      (s.abandon t n).cfg = s.cfg ∧ (s.abandon t n).inbox = s.inbox ∧ (s.abandon t n).response = none ∧
      (s.abandon t n).waitDone = false ∧
      (s.abandon t n).history = s.history ++ (t.history.drop s.history.length).take n :=
  ⟨rfl, rfl, rfl, rfl, rfl, rfl, rfl, rfl, rfl, rfl, rfl⟩

end Sys2Proof.Machine
end

