-- ==== Sys2Proof/Laws/Tables.lean ====
section
/-!
SUPPORT. The look-ups: a field table of a legal configuration is a two-way map (R130), `RegAddr` is injective, names
of registers are found, gains and their codes, and the results of the pure codecs.
-/

namespace Sys2Proof.Machine

/-- A search by a key that no two rows share finds exactly the row with the key. -/
theorem find_by_key {α β : Type} [DecidableEq β] (k : α → β) (t : List α) (h : (t.map k).Nodup) (b : β) (x : α) :
    t.find? (fun y => k y == b) = some x ↔ x ∈ t ∧ k x = b := by
  induction t with
  | nil => simp
  | cons y ys ih =>
    simp only [List.map_cons, List.nodup_cons] at h
    by_cases hy : k y = b
    · simp only [List.find?_cons, hy, beq_self_eq_true, Option.some.injEq, List.mem_cons]
      constructor
      · rintro rfl; exact ⟨.inl rfl, hy⟩
      · rintro ⟨rfl | hx, hb⟩
        · rfl
        · exact absurd (List.mem_map.mpr ⟨x, hx, hb.trans hy.symm⟩) h.1
    · have : (k y == b) = false := by simpa using hy
      simp only [List.find?_cons, this, ih h.2, List.mem_cons]
      constructor
      · rintro ⟨hx, hb⟩; exact ⟨.inr hx, hb⟩
      · rintro ⟨rfl | hx, hb⟩
        · exact absurd hb hy
        · exact ⟨hx, hb⟩

/-- The encode side of a legal table (R130). -/
theorem table_enc_iff {w : Nat} {t : Table w} (h : t.legal = true) (n : Ident) (c : BitVec w) :
    Table.enc t n = some c ↔ (n, c) ∈ t := by
  simp only [Table.legal, Bool.and_eq_true, decide_eq_true_eq] at h
  simp only [Table.enc, Option.map_eq_some_iff]
  constructor
  · rintro ⟨x, hx, rfl⟩
    obtain ⟨h1, rfl⟩ := (find_by_key Prod.fst t h.1 n x).mp hx
    exact h1
  · intro hm
    exact ⟨(n, c), (find_by_key Prod.fst t h.1 n _).mpr ⟨hm, rfl⟩, rfl⟩

/-- The decode side of a legal table (R130). -/
theorem table_dec_iff {w : Nat} {t : Table w} (h : t.legal = true) (n : Ident) (c : BitVec w) :
    Table.dec t c = some n ↔ (n, c) ∈ t := by
  simp only [Table.legal, Bool.and_eq_true, decide_eq_true_eq] at h
  simp only [Table.dec, Option.map_eq_some_iff]
  constructor
  · rintro ⟨x, hx, rfl⟩
    obtain ⟨h1, rfl⟩ := (find_by_key Prod.snd t h.2 c x).mp hx
    exact h1
  · intro hm
    exact ⟨(n, c), (find_by_key Prod.snd t h.2 c _).mpr ⟨hm, rfl⟩, rfl⟩

/-- What a legal configuration gives (U14, U15). -/
theorem legal_parts {c : Config} (h : c.legal = true) :
    1 ≤ c.nDummy ∧ 100 ≤ c.tResetLowMs ∧ (RegId.all.map c.regMap.addr).Nodup ∧ c.fixedLegal = true ∧
      c.offsetsLegal = true ∧ c.tablesLegal = true := by
  simp only [Config.legal, Bool.and_eq_true, decide_eq_true_eq] at h
  obtain ⟨⟨⟨⟨⟨h1, h2⟩, h3⟩, h4⟩, h5⟩, h6⟩ := h
  exact ⟨h1, h2, h3, h4, h5, h6⟩

theorem legal_nDummy {c : Config} (h : c.legal = true) : 1 ≤ c.nDummy := (legal_parts h).1

theorem legal_regMap {c : Config} (h : c.legal = true) : (RegId.all.map c.regMap.addr).Nodup := (legal_parts h).2.2.1

/-- The parameters whose value the source fixes (R8 P6 to P8). -/
theorem fixed_values {c : Config} (h : c.fixedLegal = true) :
    c.opRreg = 0x20 ∧ c.opWreg = 0x40 ∧ c.opRdata = 0x12 ∧ c.opStart = 0x08 ∧ c.opStop = 0x0A ∧
      c.opSfocal = 0x19 ∧ c.opSyocal = 0x16 ∧ c.satPos = 0x7FFFFF ∧ c.satNeg = 0x800000 := by
  simp only [Config.fixedLegal, Bool.and_eq_true, decide_eq_true_eq] at h
  obtain ⟨⟨⟨⟨⟨⟨⟨⟨h1, h2⟩, h3⟩, h4⟩, h5⟩, h6⟩, h7⟩, h8⟩, h9⟩ := h
  exact ⟨h1, h2, h3, h4, h5, h6, h7, h8, h9⟩

theorem legal_fixed {c : Config} (h : c.legal = true) :
    c.opRreg = 0x20 ∧ c.opWreg = 0x40 ∧ c.opRdata = 0x12 ∧ c.opStart = 0x08 ∧ c.opStop = 0x0A ∧
      c.opSfocal = 0x19 ∧ c.opSyocal = 0x16 ∧ c.satPos = 0x7FFFFF ∧ c.satNeg = 0x800000 :=
  fixed_values (legal_parts h).2.2.2.1

theorem legal_offsets {c : Config} (h : c.legal = true) :
    c.offCrcOnly + 3 ≤ 9 ∧ c.offBoth + 3 ≤ 9 ∧ 2 ≤ c.offCrcOnly ∧ 3 ≤ c.offBoth := by
  have h := (legal_parts h).2.2.2.2.1
  simp only [Config.offsetsLegal, Bool.and_eq_true, decide_eq_true_eq] at h
  exact ⟨h.1.1.1.1, h.1.1.1.2, h.1.1.2, h.1.2⟩

theorem legal_tables {c : Config} (h : c.legal = true) :
    c.pinTable.legal = true ∧ c.rateTable.legal = true ∧ c.filterTable.legal = true ∧
      c.chopTable.legal = true ∧ c.convTable.legal = true ∧ c.delayTable.legal = true ∧
      c.refPTable.legal = true ∧ c.refNTable.legal = true := by
  have h := (legal_parts h).2.2.2.2.2
  simp only [Config.tablesLegal, Bool.and_eq_true, decide_eq_true_eq] at h
  obtain ⟨⟨⟨⟨⟨⟨⟨⟨⟨a, b⟩, c⟩, d⟩, e⟩, f⟩, g⟩, i⟩, -⟩, -⟩ := h
  exact ⟨a, b, c, d, e, f, g, i⟩

/-- The constant frames of a legal configuration, as the spec prints them (R102 to R106, R110). -/
theorem legal_frames {c : Config} (h : c.legal = true) :
    frameC3 c.opStart = [0x08, 0x10, 0x00] ∧ frameC3 c.opStop = [0x0A, 0x10, 0x00] ∧
      frameRD c = [0x12, 0x00, 0x00, 0x00, 0x00, 0x00, 0x00, 0x00, 0x00] ∧ frameC2 c.opSyocal = [0x16, 0x10] ∧
      frameC2 c.opSfocal = [0x19, 0x10] := by
  obtain ⟨-, -, h3, h4, h5, h6, h7, -, -⟩ := legal_fixed h
  simp [frameC3, frameC2, frameRD, arb, h3, h4, h5, h6, h7, List.replicate]

/-- The saturation test of a legal configuration (R214). -/
theorem saturated_iff {c : Config} (h : c.legal = true) (raw : Sample) :
    saturated c raw = true ↔ raw = 0x7FFFFF ∨ raw = 0x800000 := by
  obtain ⟨-, -, -, -, -, -, -, h8, h9⟩ := legal_fixed h
  simp [saturated, h8, h9]

/-- When READ_DATA is accepted (R215). -/
theorem waitReturned_iff (a : Acq) (waitDone : Bool) :
    waitReturned a waitDone = true ↔ a = .waitingForData ∧ waitDone = true := by
  simp [waitReturned]

/-! ### Frames recognised byte for byte -/

/-- The frame is the command's: byte 0 classifies it and every byte is the frame's (R81, R89). -/
theorem recognise_eq_some {c : Config} {f : List Byte} {i : Instr} :
    recognise c f = some i ↔ decode c f = some i ∧ encode c i = f := by
  simp [recognise, Option.filter_eq_some_iff]

/-- A frame that names its command is recognised as it. -/
theorem recognise_encode {c : Config} {i : Instr} (h : decode c (encode c i) = some i) :
    recognise c (encode c i) = some i := recognise_eq_some.mpr ⟨h, rfl⟩

theorem mem_regId_all (r : RegId) : r ∈ RegId.all := by cases r <;> decide

/-- The register at an address, where `RegAddr` is injective (R111). -/
theorem regAt_eq_some_iff {m : RegMap} (h : (RegId.all.map m.addr).Nodup) (a : Addr) (r : RegId) :
    m.regAt a = some r ↔ m.addr r = a := by
  simp [RegMap.regAt, find_by_key m.addr RegId.all h, mem_regId_all]

/-- The register found at an address has that address, in every configuration. -/
theorem addr_of_regAt {m : RegMap} {a : Addr} {r : RegId} (h : m.regAt a = some r) : m.addr r = a := by
  simpa using List.find?_some h

/-- Some register is found at every register's address. -/
theorem regAt_addr_isSome (m : RegMap) (r : RegId) : (m.regAt (m.addr r)).isSome = true := by
  simp only [RegMap.regAt, List.find?_isSome]
  exact ⟨r, mem_regId_all r, by simp⟩

@[simp] theorem ofName_name (r : RegId) : RegId.ofName r.name = some r := by cases r <;> decide

/-- More bytes after a frame do not change its class (R81). -/
theorem decode_append {c : Config} {f : List Byte} {i : Instr} (h : decode c f = some i) (g : List Byte) :
    decode c (f ++ g) = some i := by
  cases f with
  | nil => simp [decode] at h
  | cons b rest =>
    cases rest with
    | cons v rest => exact h
    | nil =>
      simp only [decode, List.head?_nil, Option.map_none, List.cons_append, List.nil_append] at h ⊢
      split at h
      · simp_all
      · split at h
        · exact absurd h (by simp)
        · simp_all

/-- What completing does: given bytes stay a prefix, and what is added makes the frame of the command (R89). -/
theorem completeFrame_cases (c : Config) (given : List Byte) :
    completeFrame c given = given ∨
      ∃ i, completeFrame c given = encode c i ∧ (encode c i).take given.length = given := by
  unfold completeFrame
  split
  · split
    case isTrue h => exact .inr ⟨_, rfl, h⟩
    case isFalse => exact .inl rfl
  · exact .inl rfl

/-- A frame that names its command is complete as it stands (log entry 5). -/
theorem completeFrame_encode {c : Config} {i : Instr} (h : decode c (encode c i) = some i) :
    completeFrame c (encode c i) = encode c i := by
  simp [completeFrame, decode_append h]

/-! ### Results of look-ups -/

theorem known_eq_ok {α : Type} {u : Unknown} {x : Option α} {s t : State} {v : α} :
    known u x s = (.ok v, t) ↔ x = some v ∧ s = t := by
  cases x <;> simp [known, done]

theorem mapValue_eq_ok {α β : Type} {f : α → β} {r : Res α} {b : β} {t : State} :
    r.mapValue f = (.ok b, t) ↔ ∃ a, r = (.ok a, t) ∧ f a = b := by
  obtain ⟨x, s⟩ := r
  cases x <;> simp [Res.mapValue, Res.andThen, done]
  tauto

theorem andThen_eq_ok {α β : Type} {r : Res α} {k : α → State → Res β} {b : β} {t : State} :
    r.andThen k = (.ok b, t) ↔ ∃ a s, r = (.ok a, s) ∧ k a s = (.ok b, t) := by
  obtain ⟨x, s⟩ := r
  cases x <;> simp [Res.andThen]

/-- A byte that is there is the reply byte. -/
theorem replyByte_eq {rx : List Byte} {i : Nat} {v : Byte} (h : rx[i]? = some v) : replyByte rx i = v := by
  simp [replyByte, List.getD_eq_getElem?_getD, h]

/-- A reply byte inside the reply is there. -/
theorem getElem?_replyByte {rx : List Byte} {i : Nat} (h : i < rx.length) : rx[i]? = some (replyByte rx i) := by
  simp [replyByte, List.getD_eq_getElem?_getD, h]

/-! ### Gains -/

theorem gainCode_gainOfCode : ∀ k : BitVec 3, gainCode (gainOfCode k) = some k := by decide

theorem gainOfCode_of_gainCode {g : Nat} {k : BitVec 3} (h : gainCode g = some k) : gainOfCode k = g := by
  unfold gainCode at h
  repeat' split at h
  all_goals first
    | (simp only [Option.some.injEq] at h; subst h; subst_vars; decide)
    | exact absurd h (by simp)

theorem gainOfCode_mem : ∀ k : BitVec 3, gainOfCode k ∈ [1, 2, 4, 8, 16, 32, 64, 128] := by decide

/-- `GainTable` (R135). -/
theorem gainCode_isSome_iff (g : Nat) : (gainCode g).isSome = true ↔ g ∈ [1, 2, 4, 8, 16, 32, 64, 128] := by
  constructor
  · intro h
    obtain ⟨k, hk⟩ := Option.isSome_iff_exists.mp h
    rw [← gainOfCode_of_gainCode hk]
    exact gainOfCode_mem k
  · intro h
    simp only [List.mem_cons, List.not_mem_nil, or_false] at h
    rcases h with rfl | rfl | rfl | rfl | rfl | rfl | rfl | rfl <;> rfl

theorem gainCode_none_iff (g : Nat) : gainCode g = none ↔ g ∉ [1, 2, 4, 8, 16, 32, 64, 128] := by
  rw [← gainCode_isSome_iff, Option.not_isSome_iff_eq_none]

/-! ### The fields of an assembled byte (R77) -/

theorem inpmuxByte_fields : ∀ p n : BitVec 4, field (inpmuxByte p n) 4 4 = p ∧ field (inpmuxByte p n) 0 4 = n := by
  decide

theorem pgaByte_fields : ∀ (b : Bool) (g : BitVec 3),
    (pgaByte b g).getLsbD 7 = b ∧ field (pgaByte b g) 0 3 = g := by decide

theorem mode0Byte_fields : ∀ (d : BitVec 5) (f : BitVec 3),
    field (mode0Byte d f) 3 5 = d ∧ field (mode0Byte d f) 0 3 = f := by decide

theorem mode1Byte_fields : ∀ (c : BitVec 2) (t : BitVec 1) (d : BitVec 4),
    field (mode1Byte c t d) 5 2 = c ∧ field (mode1Byte c t d) 4 1 = t ∧ field (mode1Byte c t d) 0 4 = d := by decide

theorem refByte_fields : ∀ (e : Bool) (p n : BitVec 2),
    (refByte e p n).getLsbD 4 = e ∧ field (refByte e p n) 2 2 = p ∧ field (refByte e p n) 0 2 = n := by decide

/-- The signed reading of a sample from its top byte (R12, R200). -/
theorem sample_toNat (x y z : Byte) :
    (x ++ y ++ z : BitVec 24).toNat = x.toNat * 65536 + y.toNat * 256 + z.toNat := by
  have hx := x.isLt
  have hy := y.isLt
  have hz := z.isLt
  simp only [BitVec.toNat_append]
  rw [← Nat.shiftLeft_add_eq_or_of_lt hz, ← Nat.shiftLeft_add_eq_or_of_lt hy]
  simp only [Nat.shiftLeft_eq]
  omega

end Sys2Proof.Machine
end

