-- ==== Sys2Proof/Laws/Waits.lean ====
section
/-!
SUPPORT. What the two wait loops can do (R212, R213, R258): everything an error, an `Ok` and a list of environment
answers say about the state and the events.
-/

namespace Sys2Proof.Machine

/-- No register of the block but `ACQ` and `POLLS` differs, nor a parameter nor a request to come (the model's
record `waitDone` may). -/
structure SameRegs (s t : State) : Prop where
  sh : t.sh = s.sh
  resetN : t.resetN = s.resetN
  pwdnHold : t.pwdnHold = s.pwdnHold
  startPin : t.startPin = s.startPin
  cfg : t.cfg = s.cfg
  inbox : t.inbox = s.inbox

theorem SameRegs.refl (s : State) : SameRegs s s := ⟨rfl, rfl, rfl, rfl, rfl, rfl⟩

theorem SameRegs.trans {s t u : State} (h : SameRegs s t) (h' : SameRegs t u) : SameRegs s u :=
  ⟨h'.sh.trans h.sh, h'.resetN.trans h.resetN, h'.pwdnHold.trans h.pwdnHold, h'.startPin.trans h.startPin,
    h'.cfg.trans h.cfg, h'.inbox.trans h.inbox⟩

/-- The events a loop of WAIT_POLLED leaves: STATUS reads that were answered. -/
def statusReads (c : Config) (rs : List (List Byte)) : List Event :=
  rs.map fun rx => .xchg (frameRR c (c.regMap.addr .status)) (some rx)

/-- Everything the loop of WAIT_POLLED can do with `n` polls left: data-ready after `k` polls, or all `n` used, or
a failed poll. -/
theorem pollLoop_spec (n : Nat) (s : State) :
    ∃ rs : List (List Byte), (∀ rx ∈ rs, rx.length = 2 + s.cfg.nDummy) ∧
      SameRegs s (pollLoop n s).2 ∧ (pollLoop n s).2.samples = s.samples ∧
      (pollLoop n s).2.waitDone = s.waitDone ∧
      ((rs.length ≤ n ∧ (pollLoop n s).1 = .ok () ∧ (pollLoop n s).2.acq = s.acq ∧
          (pollLoop n s).2.polls = s.polls + rs.length ∧
          (pollLoop n s).2.history = s.history ++ statusReads s.cfg rs) ∨
        (rs.length = n ∧ (pollLoop n s).1 = .error .timeout ∧ (pollLoop n s).2.acq = .fault ∧
          (pollLoop n s).2.polls = s.polls + n ∧
          (pollLoop n s).2.history = s.history ++ statusReads s.cfg rs) ∨
        (rs.length < n ∧ (pollLoop n s).1 = .error .transportFailure ∧ (pollLoop n s).2.acq = .fault ∧
          (pollLoop n s).2.polls = s.polls + rs.length + 1 ∧
          (pollLoop n s).2.history = s.history ++ (statusReads s.cfg rs ++
            [.xchg (frameRR s.cfg (s.cfg.regMap.addr .status)) none]))) := by
  induction n generalizing s with
  | zero =>
    rw [pollLoop_zero]
    exact ⟨[], by simp, ⟨rfl, rfl, rfl, rfl, rfl, rfl⟩, rfl, rfl, .inr (.inl ⟨rfl, rfl, rfl, rfl, by simp [statusReads]⟩)⟩
  | succ n ih =>
    rcases pollLoop_succ n s with ⟨rx, ha, e⟩ | ⟨ha, e⟩
    · rw [e]
      split
      · refine ⟨[rx], by simpa using answer_length ha, ⟨rfl, rfl, rfl, rfl, rfl, rfl⟩, rfl, rfl, .inl ⟨by simp, rfl, rfl, rfl, ?_⟩⟩
        simp [statusReads, ha]
      · obtain ⟨rs, hl, hs, hm, hw, h⟩ := ih ((s.setPolls (s.polls + 1)).afterXchg
          (frameRR s.cfg (s.cfg.regMap.addr .status)))
        have h0 : SameRegs s ((s.setPolls (s.polls + 1)).afterXchg
          (frameRR s.cfg (s.cfg.regMap.addr .status))) := ⟨rfl, rfl, rfl, rfl, rfl, rfl⟩
        refine ⟨rx :: rs, by simpa using ⟨answer_length ha, hl⟩, h0.trans hs, by rw [hm]; rfl, by rw [hw]; rfl, ?_⟩
        rcases h with ⟨h1, h2, h3, h4, h5⟩ | ⟨h1, h2, h3, h4, h5⟩ | ⟨h1, h2, h3, h4, h5⟩
        · refine .inl ⟨by simp; omega, h2, h3, by rw [h4]; simp; omega, ?_⟩
          rw [h5]; simp [statusReads, ha]
        · refine .inr (.inl ⟨by simp; omega, h2, h3, by rw [h4]; simp; omega, ?_⟩)
          rw [h5]; simp [statusReads, ha]
        · refine .inr (.inr ⟨by simp; omega, h2, h3, by rw [h4]; simp; omega, ?_⟩)
          rw [h5]; simp [statusReads, ha]
    · rw [e]
      refine ⟨[], by simp, ⟨rfl, rfl, rfl, rfl, rfl, rfl⟩, rfl, rfl, .inr (.inr ⟨by simp, rfl, rfl, rfl, ?_⟩)⟩
      simp [statusReads, ha]

/-- Everything the loop of WAIT_SIGNAL can do with `n` samples left: low after `k` samples of 1, or all `n` used. -/
theorem sampleLoop_spec (n : Nat) (s : State) :
    SameRegs s (sampleLoop n s).2 ∧ (sampleLoop n s).2.replies = s.replies ∧
      (sampleLoop n s).2.waitDone = s.waitDone ∧
      ((∃ k, k < n ∧ (sampleLoop n s).1 = .ok () ∧ (sampleLoop n s).2.acq = s.acq ∧
          (sampleLoop n s).2.polls = s.polls + k + 1 ∧
          (sampleLoop n s).2.history =
            s.history ++ (List.replicate k (.sampleDrdy true) ++ [.sampleDrdy false])) ∨
        ((sampleLoop n s).1 = .error .timeout ∧ (sampleLoop n s).2.acq = .fault ∧
          (sampleLoop n s).2.polls = s.polls + n ∧
          (sampleLoop n s).2.history = s.history ++ List.replicate n (.sampleDrdy true))) := by
  induction n generalizing s with
  | zero =>
    rw [sampleLoop_zero]
    exact ⟨⟨rfl, rfl, rfl, rfl, rfl, rfl⟩, rfl, rfl, .inr ⟨rfl, rfl, rfl, by simp⟩⟩
  | succ n ih =>
    rw [sampleLoop_succ]
    cases hl : s.level with
    | false =>
      refine ⟨⟨rfl, rfl, rfl, rfl, rfl, rfl⟩, rfl, rfl, .inl ⟨0, by omega, rfl, rfl, rfl, ?_⟩⟩
      simp [hl]
    | true =>
      obtain ⟨hs, hr, hw, h⟩ := ih (s.setPolls (s.polls + 1)).afterSample
      have h0 : SameRegs s (s.setPolls (s.polls + 1)).afterSample := ⟨rfl, rfl, rfl, rfl, rfl, rfl⟩
      simp only [↓reduceIte]
      refine ⟨h0.trans hs, by rw [hr]; rfl, by rw [hw]; rfl, ?_⟩
      rcases h with ⟨k, h1, h2, h3, h4, h5⟩ | ⟨h2, h3, h4, h5⟩
      · refine .inl ⟨k + 1, by omega, h2, h3, by rw [h4]; simp; omega, ?_⟩
        rw [h5]
        simp [hl, List.replicate_succ]
      · refine .inr ⟨h2, h3, by rw [h4]; simp; omega, ?_⟩
        rw [h5]
        simp [hl, List.replicate_succ]

/-- How a wait ends: its loop has seen data-ready and that it has returned is on record, or the loop's error. -/
theorem andThen_waitOk_cases (r : Res Unit) :
    (∃ s, r = (.ok (), s) ∧ (r.andThen fun _ s => waitOk s) = (.ok (), s.setWaitDone true)) ∨
      (∃ e s, r = (.error e, s) ∧ (r.andThen fun _ s => waitOk s) = (.error e, s)) := by
  obtain ⟨x, s⟩ := r
  cases x with
  | ok v => exact .inl ⟨s, rfl, rfl⟩
  | error e => exact .inr ⟨e, s, rfl, rfl⟩

end Sys2Proof.Machine
end

