-- ==== Sys2Proof/Laws/Sequences.lean ====
section
/-!
SUPPORT. What every part of the acquisition sequence does, in one predicate that composes along `andThen`; then
the composite COLLECT_MEASUREMENT and each sequencer operation by it.
-/

namespace Sys2Proof.Machine

/-- The frames the sequencer sends. -/
def seqFrames (c : Config) : List (List Byte) :=
  [frameC3 c.opStart, frameRR c (c.regMap.addr .status), frameRD c]

/-- An event of the sequencer that did not fail. -/
def Served (c : Config) (e : Event) : Prop :=
  (∃ tx rx, e = .xchg tx (some rx) ∧ tx ∈ seqFrames c ∧ rx.length = tx.length) ∨ ∃ b, e = .sampleDrdy b

/-- What a part of the sequence leaves: no register but `ACQ` and `POLLS` differs; every event went well, or the
last is the failed exchange the error reports; an error leaves Fault, a timeout the whole budget counted. -/
structure Sequenced {α : Type} (s : State) (r : Res α) : Prop where
  regs : SameRegs s r.2
  events : ∃ es, r.2.history = s.history ++ es ∧
    (((∀ e ∈ es, Served s.cfg e) ∧ r.1 ≠ .error .transportFailure) ∨
      ∃ es' tx, es = es' ++ [.xchg tx none] ∧ tx ∈ seqFrames s.cfg ∧ (∀ e ∈ es', Served s.cfg e) ∧
        r.1 = .error .transportFailure)
  errors : ∀ e, r.1 = .error e →
    (e = .timeout ∨ e = .pgaAlarm ∨ e = .transportFailure) ∧ r.2.acq = .fault
  timeout : r.1 = .error .timeout → r.2.polls = s.cfg.retryBudget
  polls : s.polls ≤ s.cfg.retryBudget → r.2.polls ≤ s.cfg.retryBudget

/-- One part after another. -/
theorem Sequenced.andThen {α β : Type} {s : State} {r : Res α} {k : α → State → Res β} (h : Sequenced s r)
    (hk : ∀ v t, r = (.ok v, t) → Sequenced t (k v t)) : Sequenced s (r.andThen k) := by
  obtain ⟨x, t⟩ := r
  cases x with
  | error e =>
    obtain ⟨h1, ⟨es, h2, h3⟩, h4, h5, h6⟩ := h
    refine ⟨h1, ⟨es, h2, ?_⟩, ?_, ?_, h6⟩
    · simpa using h3
    · simpa using h4
    · simpa using h5
  | ok v =>
    have hc := hk v t rfl
    obtain ⟨h1, ⟨es, h2, h3⟩, -, -, h6⟩ := h
    obtain ⟨g1, ⟨fs, g2, g3⟩, g4, g5, g6⟩ := hc
    have hcfg : t.cfg = s.cfg := h1.cfg
    have hes : ∀ e ∈ es, Served s.cfg e := by
      rcases h3 with h3 | ⟨es', tx, -, -, -, h3⟩
      · exact h3.1
      · exact absurd h3 (by simp)
    refine ⟨h1.trans g1, ⟨es ++ fs, ?_, ?_⟩, g4, ?_, ?_⟩
    · simp only [andThen_ok] at *
      rw [g2, h2, List.append_assoc]
    · rw [hcfg] at g3
      rcases g3 with ⟨g3, g⟩ | ⟨es', tx, rfl, g3, g7, g⟩
      · refine .inl ⟨?_, g⟩
        intro e he
        rcases List.mem_append.mp he with he | he
        · exact hes e he
        · exact g3 e he
      · refine .inr ⟨es ++ es', tx, by simp, g3, ?_, g⟩
        intro e he
        rcases List.mem_append.mp he with he | he
        · exact hes e he
        · exact g7 e he
    · rw [← hcfg]; exact g5
    · rw [← hcfg]
      exact fun hp => g6 (by rw [hcfg] at hp ⊢; exact h6 hp)

theorem sequenced_done {α : Type} (v : α) (s : State) : Sequenced s (done v s) :=
  ⟨SameRegs.refl s, ⟨[], by simp [done], .inl (by simp [done])⟩, by simp [done], by simp [done], id⟩

theorem Sequenced.mapValue {α β : Type} {s : State} {r : Res α} (f : α → β) (h : Sequenced s r) :
    Sequenced s (r.mapValue f) := h.andThen fun v t _ => sequenced_done (f v) t

theorem arm_sequenced (s : State) : Sequenced s (arm s) := by
  rcases arm_cases s with ⟨rx, h, e⟩ | ⟨h, e⟩
  · rw [e]
    refine ⟨⟨rfl, rfl, rfl, rfl, rfl, rfl⟩, ⟨[.xchg (frameC3 s.cfg.opStart) (some rx)], by simp [h], .inl ?_⟩,
      by simp, by simp, id⟩
    simp [Served, seqFrames, answer_length h]
  · rw [e]
    refine ⟨⟨rfl, rfl, rfl, rfl, rfl, rfl⟩, ⟨[.xchg (frameC3 s.cfg.opStart) none], by simp [h], .inr ?_⟩,
      by simp, by simp, id⟩
    exact ⟨[], _, rfl, by simp [seqFrames], by simp, rfl⟩

theorem served_statusReads {c : Config} {rs : List (List Byte)} (h : ∀ rx ∈ rs, rx.length = 2 + c.nDummy) :
    ∀ e ∈ statusReads c rs, Served c e := by
  intro e he
  obtain ⟨rx, hr, rfl⟩ := List.mem_map.mp he
  exact .inl ⟨_, rx, rfl, by simp [seqFrames], by simpa using h rx hr⟩

theorem waitOk_sequenced (s : State) : Sequenced s (waitOk s) :=
  ⟨⟨rfl, rfl, rfl, rfl, rfl, rfl⟩, ⟨[], by simp [waitOk, done], .inl (by simp [waitOk, done])⟩, by simp [waitOk, done],
    by simp [waitOk, done], id⟩

theorem waitPolled_sequenced (s : State) : Sequenced s (waitPolled s) := by
  obtain ⟨rs, hl, hs, -, -, h⟩ := pollLoop_spec s.cfg.retryBudget (enterWait s)
  have hs : SameRegs s (pollLoop s.cfg.retryBudget (enterWait s)).2 :=
    SameRegs.trans (t := enterWait s) ⟨rfl, rfl, rfl, rfl, rfl, rfl⟩ hs
  have hh : (enterWait s).history = s.history := rfl
  have hp : (enterWait s).polls = 0 := rfl
  have hc : (enterWait s).cfg = s.cfg := rfl
  have hserv := served_statusReads hl
  rw [hc] at hserv
  simp only [hh, hp, hc] at h
  refine Sequenced.andThen ?_ fun _ t _ => waitOk_sequenced t
  rcases h with ⟨h1, h2, h3, h4, h5⟩ | ⟨h1, h2, h3, h4, h5⟩ | ⟨h1, h2, h3, h4, h5⟩
  · exact ⟨hs, ⟨_, h5, .inl ⟨hserv, by simp [h2]⟩⟩, by simp [h2], by simp [h2], fun _ => by omega⟩
  · exact ⟨hs, ⟨_, h5, .inl ⟨hserv, by simp [h2]⟩⟩, by simp [h2, h3], fun _ => by omega, fun _ => by omega⟩
  · exact ⟨hs, ⟨_, h5, .inr ⟨_, _, rfl, by simp [seqFrames], hserv, h2⟩⟩, by simp [h2, h3], by simp [h2],
      fun _ => by omega⟩

theorem waitSignal_sequenced (s : State) : Sequenced s (waitSignal s) := by
  obtain ⟨hs, -, -, h⟩ := sampleLoop_spec s.cfg.retryBudget (enterWait s)
  have hs : SameRegs s (sampleLoop s.cfg.retryBudget (enterWait s)).2 :=
    SameRegs.trans (t := enterWait s) ⟨rfl, rfl, rfl, rfl, rfl, rfl⟩ hs
  have hh : (enterWait s).history = s.history := rfl
  have hp : (enterWait s).polls = 0 := rfl
  simp only [hh, hp] at h
  refine Sequenced.andThen ?_ fun _ t _ => waitOk_sequenced t
  rcases h with ⟨k, h1, h2, h3, h4, h5⟩ | ⟨h2, h3, h4, h5⟩
  · refine ⟨hs, ⟨_, h5, .inl ⟨?_, by simp [h2]⟩⟩, by simp [h2], by simp [h2], fun _ => by omega⟩
    intro e he
    rcases List.mem_append.mp he with he | he
    · exact .inr ⟨true, (List.mem_replicate.mp he).2⟩
    · exact .inr ⟨false, by simpa using he⟩
  · refine ⟨hs, ⟨_, h5, .inl ⟨?_, by simp [h2]⟩⟩, by simp [h2, h3], fun _ => by omega, fun _ => by omega⟩
    intro e he
    exact .inr ⟨true, (List.mem_replicate.mp he).2⟩

theorem wait_sequenced (m : WaitMode) (s : State) : Sequenced s (wait m s) := by
  cases m
  · exact waitPolled_sequenced s
  · exact waitSignal_sequenced s

theorem readData_sequenced (s : State) : Sequenced s (readData s) := by
  rcases readData_cases s with ⟨rx, h, hl, e⟩ | ⟨h, e⟩
  · rw [e]
    refine ⟨⟨rfl, rfl, rfl, rfl, rfl, rfl⟩, ⟨[.xchg (frameRD s.cfg) (some rx)], by simp [h], .inl ?_⟩,
      by simp, by simp, id⟩
    simp [Served, seqFrames, hl]
  · rw [e]
    refine ⟨⟨rfl, rfl, rfl, rfl, rfl, rfl⟩, ⟨[.xchg (frameRD s.cfg) none], by simp [h], .inr ?_⟩, by simp, by simp, id⟩
    exact ⟨[], _, rfl, by simp [seqFrames], by simp, rfl⟩

/-- FINISH with a gain of the table. -/
theorem finish_sequenced {g : Nat} (hg : (gainCode g).isSome = true) (status : Option Byte) (raw : Sample) (m : Nat)
    (s : State) : Sequenced s (finish status raw m g s) := by
  rcases finish_cases status raw m g s with ⟨-, e⟩ | ⟨-, -, e⟩ | ⟨-, h, -⟩
  · rw [e]
    exact ⟨⟨rfl, rfl, rfl, rfl, rfl, rfl⟩, ⟨[], by simp, .inl (by simp)⟩, by simp, by simp, id⟩
  · rw [e]
    exact ⟨⟨rfl, rfl, rfl, rfl, rfl, rfl⟩, ⟨[], by simp, .inl (by simp)⟩, by simp, by simp, id⟩
  · simp [h] at hg

/-- The four phases of COLLECT_MEASUREMENT once mode and gain are known (R216). -/
def collectPhases (m : WaitMode) (referenceMv gain : Nat) (s : State) : Res Value :=
  (arm s).andThen fun _ s => (wait m s).andThen fun _ s =>
    (readData s).andThen fun d s => finish d.1 d.2 referenceMv gain s

theorem collectPhases_sequenced {g : Nat} (hg : (gainCode g).isSome = true) (m : WaitMode) (ref : Nat) (s : State) :
    Sequenced s (collectPhases m ref g s) :=
  (arm_sequenced s).andThen fun _ t _ => (wait_sequenced m t).andThen fun _ t _ =>
    (readData_sequenced t).andThen fun d t _ => finish_sequenced hg d.1 d.2 ref t

/-- COLLECT_MEASUREMENT past its `require`: an unknown mode, an unknown gain, or the four phases (R216, R252). -/
theorem collect_cases (mode : Ident) (ref g : Nat) (s : State) :
    (waitModeOf mode = none ∧ collect mode ref g s = (.error (.unknownIdentifier (.name mode)), s)) ∨
      (∃ m, waitModeOf mode = some m ∧
        ((gainCode g = none ∧ collect mode ref g s = (.error (.unknownIdentifier (.number g)), s)) ∨
          ((gainCode g).isSome = true ∧ collect mode ref g s = collectPhases m ref g s))) := by
  unfold collect modeOperand gainOperand
  cases hm : waitModeOf mode with
  | none => exact .inl ⟨rfl, by simp⟩
  | some m =>
    refine .inr ⟨m, rfl, ?_⟩
    cases hg : gainCode g with
    | none => exact .inl ⟨rfl, by simp⟩
    | some k => exact .inr ⟨rfl, by simp [collectPhases]⟩

end Sys2Proof.Machine
end

