-- ==== Sys2Proof/Laws/HostOps.lean ====
section
/-!
SUPPORT. What each shape of host operation can do, and one case analysis of all 54: a whole-machine proof cites
`execOp_runs` and never unfolds an operation.
-/

namespace Sys2Proof.Machine

/-! ### Lookups end in a value or in an unknown identifier -/

/-- A part of an operation that only looks things up: the state stays, an error is an unknown identifier. -/
structure LooksUp {α : Type} (s : State) (r : Res α) : Prop where
  state : r.2 = s
  error : ∀ e, r.1 = .error e → ∃ u, e = .unknownIdentifier u

theorem looksUp_done {α : Type} (v : α) (s : State) : LooksUp s (done v s) := ⟨rfl, by simp [done]⟩

theorem looksUp_known {α : Type} (u : Unknown) (x : Option α) (s : State) : LooksUp s (known u x s) := by
  cases x with
  | none => exact ⟨rfl, by simp⟩
  | some v => exact looksUp_done v s

theorem LooksUp.andThen {α β : Type} {s : State} {r : Res α} {k : α → State → Res β} (h : LooksUp s r)
    (hk : ∀ v, LooksUp s (k v s)) : LooksUp s (r.andThen k) := by
  obtain ⟨x, t⟩ := r
  obtain ⟨rfl, h⟩ := h
  cases x with
  | error e => exact ⟨rfl, fun e' he => h e' (by cases he; rfl)⟩
  | ok v => exact hk v

theorem LooksUp.mapValue {α β : Type} {s : State} {r : Res α} (f : α → β) (h : LooksUp s r) :
    LooksUp s (r.mapValue f) := h.andThen fun v => looksUp_done (f v) s

/-- The two results of a look-up. -/
theorem LooksUp.cases {α : Type} {s : State} {r : Res α} (h : LooksUp s r) :
    (∃ v, r = (.ok v, s)) ∨ ∃ u, r = (.error (.unknownIdentifier u), s) := by
  obtain ⟨x, t⟩ := r
  obtain ⟨rfl, h⟩ := h
  cases x with
  | ok v => exact .inl ⟨v, rfl⟩
  | error e => obtain ⟨u, rfl⟩ := h e rfl; exact .inr ⟨u, rfl⟩

theorem regOperand_looksUp (n : Ident) (s : State) : LooksUp s (regOperand n s) := looksUp_known _ _ _

theorem encInpmux_looksUp (p : Ident) (n : Option Ident) (s : State) : LooksUp s (encInpmux p n s) :=
  (looksUp_known _ _ _).andThen fun _ => (looksUp_known _ _ _).mapValue _

theorem decInpmux_looksUp (v : Byte) (s : State) : LooksUp s (decInpmux v s) :=
  (looksUp_known _ _ _).andThen fun _ => (looksUp_known _ _ _).mapValue _

theorem encPga_looksUp (b : Bool) (g : Nat) (s : State) : LooksUp s (encPga b g s) := (looksUp_known _ _ _).mapValue _

theorem decPga_looksUp (v : Byte) (s : State) : LooksUp s (decPga v s) := looksUp_done _ _

theorem encMode0_looksUp (a b : Ident) (s : State) : LooksUp s (encMode0 a b s) :=
  (looksUp_known _ _ _).andThen fun _ => (looksUp_known _ _ _).mapValue _

theorem decMode0_looksUp (v : Byte) (s : State) : LooksUp s (decMode0 v s) :=
  (looksUp_known _ _ _).andThen fun _ => (looksUp_known _ _ _).mapValue _

theorem encMode1_looksUp (a b d : Ident) (s : State) : LooksUp s (encMode1 a b d s) :=
  (looksUp_known _ _ _).andThen fun _ => (looksUp_known _ _ _).andThen fun _ => (looksUp_known _ _ _).mapValue _

theorem decMode1_looksUp (v : Byte) (s : State) : LooksUp s (decMode1 v s) :=
  (looksUp_known _ _ _).andThen fun _ => (looksUp_known _ _ _).andThen fun _ => (looksUp_known _ _ _).mapValue _

theorem encRef_looksUp (e : Bool) (a b : Ident) (s : State) : LooksUp s (encRef e a b s) :=
  (looksUp_known _ _ _).andThen fun _ => (looksUp_known _ _ _).mapValue _

theorem decRef_looksUp (v : Byte) (s : State) : LooksUp s (decRef v s) :=
  (looksUp_known _ _ _).andThen fun _ => (looksUp_known _ _ _).mapValue _

theorem raw24ToMv_looksUp (raw : Sample) (m g : Nat) (s : State) : LooksUp s (raw24ToMv raw m g s) :=
  (looksUp_known _ _ _).mapValue _

/-! ### The shapes -/

/-- The state after an operation that responds from state `u`. -/
def State.responding (u : State) (r : Response) : State := { u with response := some r }

/-- The operation only looks things up. -/
inductive LookRun (s : State) : State → Prop
  | ok (v : Value) : LookRun s (s.responding (.ok v))
  | unknown (u : Unknown) : LookRun s (s.responding (.err (.unknownIdentifier u)))

theorem LooksUp.run {s t : State} {r : Res Value} (h : LooksUp s r) (e : respond r = .next t) : LookRun s t := by
  rcases h.cases with ⟨v, rfl⟩ | ⟨u, rfl⟩ <;> cases e
  · exact .ok v
  · exact .unknown u

/-- A read of a register: the name is unknown, the exchange fails, or the value byte is decoded. -/
inductive ReadRun (s : State) : State → Prop
  | unknown (u : Unknown) : ReadRun s (s.responding (.err (.unknownIdentifier u)))
  | fails (r : RegId) (h : s.answer (2 + s.cfg.nDummy) = none) :
      ReadRun s ((s.afterXchg (frameRR s.cfg (s.cfg.regMap.addr r))).responding (.err .transportFailure))
  | reads (r : RegId) (rx : List Byte) (h : s.answer (2 + s.cfg.nDummy) = some rx) (u : State)
      (hu : LookRun (s.afterXchg (frameRR s.cfg (s.cfg.regMap.addr r))) u) : ReadRun s u

theorem readRegister_run {r : RegId} {s t : State} {k : Byte → State → Res Value} (hk : ∀ v u, LooksUp u (k v u))
    (e : respond ((readRegister r s).andThen k) = .next t) : ReadRun s t := by
  unfold readRegister at e
  rcases memRead_cases .control (s.cfg.regMap.addr r) s with ⟨rx, h, e'⟩ | ⟨h, e'⟩
  · rw [e'] at e
    exact .reads r rx h _ ((hk _ _).run e)
  · rw [e'] at e
    cases e
    exact .fails r h

theorem getter_run {r : RegId} {s t : State} {k : Byte → State → Res Value} (hk : ∀ v u, LooksUp u (k v u))
    (e : getter r k s = .next t) : ReadRun s t :=
  readRegister_run hk (accept_eq_next.mp e).2

theorem opReadRegister_run {n : Ident} {s t : State} (e : opReadRegister n s = .next t) : ReadRun s t := by
  have e := (accept_eq_next.mp e).2
  rcases (regOperand_looksUp n s).cases with ⟨r, h⟩ | ⟨u, h⟩ <;> rw [h] at e
  · exact readRegister_run (k := fun v s => done (.byte v) s) (fun v u => looksUp_done _ _) e
  · cases e; exact .unknown u

/-- A write+verify cycle of register `r` (R172): an operand is unknown, one of the two exchanges fails, or the
comparison ends it. -/
inductive WriteRun (w : Option RegId) (s : State) : State → Prop
  | unknown (u : Unknown) : WriteRun w s (s.responding (.err (.unknownIdentifier u)))
  | writeFails (r : RegId) (v : Byte) (hw : w = some r) (h : s.answer 5 = none) :
      WriteRun w s ((s.afterXchg (frameWR s.cfg (s.cfg.regMap.addr r) v)).responding (.err .transportFailure))
  | readFails (r : RegId) (v : Byte) (rx : List Byte) (hw : w = some r) (h : s.answer 5 = some rx)
      (h' : (s.afterXchg (frameWR s.cfg (s.cfg.regMap.addr r) v)).answer (2 + s.cfg.nDummy) = none) :
      WriteRun w s (((s.afterXchg (frameWR s.cfg (s.cfg.regMap.addr r) v)).afterXchg
        (frameRR s.cfg (s.cfg.regMap.addr r))).responding (.err .transportFailure))
  | verified (r : RegId) (v : Byte) (rx rx' : List Byte) (hw : w = some r) (h : s.answer 5 = some rx)
      (h' : (s.afterXchg (frameWR s.cfg (s.cfg.regMap.addr r) v)).answer (2 + s.cfg.nDummy) = some rx')
      (hv : replyByte rx' 2 = v) :
      WriteRun w s ((((s.afterXchg (frameWR s.cfg (s.cfg.regMap.addr r) v)).afterXchg
        (frameRR s.cfg (s.cfg.regMap.addr r))).setShadow r v).responding (.ok .unit))
  | status (v : Byte) (rx rx' : List Byte) (hw : w = some .status) (h : s.answer 5 = some rx)
      (h' : (s.afterXchg (frameWR s.cfg (s.cfg.regMap.addr .status) v)).answer (2 + s.cfg.nDummy) = some rx')
      (hv : replyByte rx' 2 ≠ v) :
      WriteRun w s (((s.afterXchg (frameWR s.cfg (s.cfg.regMap.addr .status) v)).afterXchg
        (frameRR s.cfg (s.cfg.regMap.addr .status))).responding (.ok .unit))
  | mismatch (r : RegId) (v : Byte) (rx rx' : List Byte) (hw : w = some r) (h : s.answer 5 = some rx)
      (h' : (s.afterXchg (frameWR s.cfg (s.cfg.regMap.addr r) v)).answer (2 + s.cfg.nDummy) = some rx')
      (hv : replyByte rx' 2 ≠ v) (hr : r ≠ .status) :
      WriteRun w s (((s.afterXchg (frameWR s.cfg (s.cfg.regMap.addr r) v)).afterXchg
        (frameRR s.cfg (s.cfg.regMap.addr r))).responding (.err (.verificationFailed r v (replyByte rx' 2))))

theorem writeRegister_run {r : RegId} {v : Byte} {s t : State}
    (e : respond ((writeRegister r v s).mapValue fun _ => .unit) = .next t) : WriteRun (some r) s t := by
  rcases writeRegister_cases r v s with ⟨h, e'⟩ | ⟨rx, h, ⟨h', e'⟩ | ⟨rx', h', e'⟩⟩
  · rw [e'] at e; cases e
    exact .writeFails r v rfl h
  · rw [e'] at e; cases e
    exact .readFails r v rx rfl h h'
  · rcases verify_cases r v (replyByte rx' 2) ((s.afterXchg (frameWR s.cfg (s.cfg.regMap.addr r) v)).afterXchg
        (frameRR s.cfg (s.cfg.regMap.addr r))) with ⟨hv, e''⟩ | ⟨hv, hr, e''⟩ | ⟨hv, hr, e''⟩
    · rw [e', e''] at e; cases e
      exact .verified r v rx rx' rfl h h' hv
    · rw [e', e''] at e; cases e; subst hr
      exact .status v rx rx' rfl h h' hv
    · rw [e', e''] at e; cases e
      exact .mismatch r v rx rx' rfl h h' hv hr

theorem setter_run {r : RegId} {enc : State → Res Byte} {s t : State} (hk : LooksUp s (enc s))
    (e : setter r enc s = .next t) : WriteRun (some r) s t := by
  have e := (accept_eq_next.mp e).2
  rcases hk.cases with ⟨v, h⟩ | ⟨u, h⟩ <;> rw [h] at e
  · exact writeRegister_run e
  · cases e; exact .unknown u

theorem opWriteRegister_run {n : Ident} {v : Byte} {s t : State} (e : opWriteRegister n v s = .next t) :
    WriteRun (RegId.ofName n) s t := by
  have e := (accept_eq_next.mp e).2
  unfold regOperand at e
  cases h : RegId.ofName n with
  | none => rw [h] at e; cases e; exact .unknown _
  | some r => rw [h] at e; exact writeRegister_run e

/-- An operation of the sequencer past its acceptance: it responds after a sequenced part. -/
inductive SeqRun (s : State) : State → Prop
  | intro (r : Res Value) (h : Sequenced s r) : SeqRun s (r.2.responding (toResponse r.1))

theorem Sequenced.run {s t : State} {r : Res Value} (h : Sequenced s r) (e : respond r = .next t) : SeqRun s t := by
  cases e
  exact .intro r h

/-- One exchange of device control, and after a calibration's the settle delay. -/
inductive ControlRun (s : State) : State → Prop
  | fails (tx : List Byte) (htx : tx ∈ [frameC3 s.cfg.opStop, frameC2 s.cfg.opSfocal, frameC2 s.cfg.opSyocal])
      (h : s.answer tx.length = none) : ControlRun s ((s.afterXchg tx).responding (.err .transportFailure))
  | stops (rx : List Byte) (h : s.answer 3 = some rx) :
      ControlRun s ((s.afterXchg (frameC3 s.cfg.opStop)).responding (.ok .unit))
  | settles (tx rx : List Byte) (htx : tx ∈ [frameC2 s.cfg.opSfocal, frameC2 s.cfg.opSyocal])
      (h : s.answer tx.length = some rx) :
      ControlRun s (((s.afterXchg tx).delay .calSettle).responding (.ok .unit))

theorem opStop_run {s t : State} (e : opStop s = .next t) : ControlRun s t := by
  have e := (accept_eq_next.mp e).2
  rcases stop_cases s with ⟨rx, h, e'⟩ | ⟨h, e'⟩ <;> rw [e'] at e <;> cases e
  · exact .stops rx h
  · exact .fails _ (by simp) h

theorem calibrate_run {op : Byte} {s t : State} (ho : frameC2 op ∈ [frameC2 s.cfg.opSfocal, frameC2 s.cfg.opSyocal])
    (e : accept s.acq.resting (respond ((calibrate op s).mapValue fun _ => .unit)) = .next t) : ControlRun s t := by
  have e := (accept_eq_next.mp e).2
  rcases calibrate_cases op s with ⟨rx, h, e'⟩ | ⟨h, e'⟩ <;> rw [e'] at e <;> cases e
  · exact .settles _ rx ho h
  · exact .fails _ (List.mem_cons_of_mem _ ho) h

/-! ### All of them -/

/-- What an operation that answers a next state did. -/
inductive OpRun (s : State) : HostOp → State → Prop
  | pure (o : HostOp) (t : State) (ho : o.pure = true) (h : LookRun s t) : OpRun s o t
  | read (o : HostOp) (t : State) (hn : o.pure = false) (hs : o.successors s.acq = [s.acq]) (hw : o.writes = none)
      (hp : o.waits = false) (ha : o.acquires = false) (hr : o ≠ .resetPulse) (h : ReadRun s t) : OpRun s o t
  | write (o : HostOp) (t : State) (hn : o.pure = false) (hs : o.successors s.acq = [s.acq])
      (hp : o.waits = false) (ha : o.acquires = false) (hr : o ≠ .resetPulse) (h : WriteRun o.writes s t) : OpRun s o t
  | control (o : HostOp) (t : State) (hn : o.pure = false) (hs : o.successors s.acq = [s.acq]) (hw : o.writes = none)
      (hp : o.waits = false) (ha : o.acquires = false) (hr : o ≠ .resetPulse) (h : ControlRun s t) : OpRun s o t
  | arm (t : State) (h : respond ((arm s).mapValue fun _ => .unit) = .next t) : OpRun s .arm t
  | enterWait : OpRun s .enterWait ((enterWait s).responding (.ok .unit))
  | waitPolled (t : State) (h : respond ((waitPolled s).mapValue fun _ => .unit) = .next t) : OpRun s .waitPolled t
  | waitSignal (t : State) (h : respond ((waitSignal s).mapValue fun _ => .unit) = .next t) : OpRun s .waitSignal t
  | readData (t : State) (h : respond ((readData s).mapValue fun d => .sample d.1 d.2) = .next t) :
      OpRun s .readData t
  | finish (status : Option Byte) (raw : Sample) (ref g : Nat) (t : State) (hq : s.acq = .dataAvailable)
      (h : respond (finish status raw ref g s) = .next t) : OpRun s (.finish status raw ref g) t
  | collect (mode : Ident) (ref g : Nat) (t : State) (h : respond (collect mode ref g s) = .next t) :
      OpRun s (.collectMeasurement mode ref g) t
  | resetPulse : OpRun s .resetPulse ((resetPulse s).responding (.ok .unit))

/-- Every host operation that answers a next state. -/
theorem execOp_runs {o : HostOp} {s t : State} (e : execOp o s = .next t) : OpRun s o t := by
  cases o with
  | buildRreg r => exact .pure _ _ rfl (((regOperand_looksUp r s).mapValue _).run e)
  | buildWreg r v => exact .pure _ _ rfl (((regOperand_looksUp r s).mapValue _).run e)
  | buildStart => exact .pure _ _ rfl ((looksUp_done _ _).run e)
  | buildStop => exact .pure _ _ rfl ((looksUp_done _ _).run e)
  | buildReset => exact .pure _ _ rfl ((looksUp_done _ _).run e)
  | buildRdata => exact .pure _ _ rfl ((looksUp_done _ _).run e)
  | buildSyocal => exact .pure _ _ rfl ((looksUp_done _ _).run e)
  | buildSfocal => exact .pure _ _ rfl ((looksUp_done _ _).run e)
  | parseRreg rx =>
    simp only [execOp, opParseRreg] at e
    split at e
    · cases e
    · exact .pure _ _ rfl ((looksUp_done _ _).run e)
  | parseRdata rx a b =>
    simp only [execOp, opParseRdata] at e
    split at e
    · cases e
    · exact .pure _ _ rfl ((looksUp_done _ _).run e)
  | encInpmux p n => exact .pure _ _ rfl (((encInpmux_looksUp p n s).mapValue _).run e)
  | decInpmux v => exact .pure _ _ rfl ((decInpmux_looksUp v s).run e)
  | encPga b g => exact .pure _ _ rfl (((encPga_looksUp b g s).mapValue _).run e)
  | decPga v => exact .pure _ _ rfl ((decPga_looksUp v s).run e)
  | encMode0 a b => exact .pure _ _ rfl (((encMode0_looksUp a b s).mapValue _).run e)
  | decMode0 v => exact .pure _ _ rfl ((decMode0_looksUp v s).run e)
  | encMode1 a b d => exact .pure _ _ rfl (((encMode1_looksUp a b d s).mapValue _).run e)
  | decMode1 v => exact .pure _ _ rfl ((decMode1_looksUp v s).run e)
  | encRef x a b => exact .pure _ _ rfl (((encRef_looksUp x a b s).mapValue _).run e)
  | decRef v => exact .pure _ _ rfl ((decRef_looksUp v s).run e)
  | encMode3 f => exact .pure _ _ rfl ((looksUp_done _ _).run e)
  | decMode3 v => exact .pure _ _ rfl ((looksUp_done _ _).run e)
  | decStatus v => exact .pure _ _ rfl ((looksUp_done _ _).run e)
  | raw24ToMv x y z m g => exact .pure _ _ rfl ((raw24ToMv_looksUp _ _ _ _).run (withReference_eq_next.mp e).2)
  | deviceConfig => exact .pure _ _ rfl ((looksUp_done _ _).run e)
  | readRegister r => exact .read _ _ rfl rfl rfl rfl rfl (by simp) (opReadRegister_run e)
  | writeRegister r v => exact .write _ _ rfl rfl rfl rfl (by simp) (opWriteRegister_run e)
  | setInpmux p n => exact .write _ _ rfl rfl rfl rfl (by simp) (setter_run (encInpmux_looksUp p n s) e)
  | setPga b g => exact .write _ _ rfl rfl rfl rfl (by simp) (setter_run (encPga_looksUp b g s) e)
  | setRef x a b => exact .write _ _ rfl rfl rfl rfl (by simp) (setter_run (encRef_looksUp x a b s) e)
  | setMode0 a b => exact .write _ _ rfl rfl rfl rfl (by simp) (setter_run (encMode0_looksUp a b s) e)
  | setMode1 a b d => exact .write _ _ rfl rfl rfl rfl (by simp) (setter_run (encMode1_looksUp a b d s) e)
  | setMode2 v => exact .write _ _ rfl rfl rfl rfl (by simp) (setter_run (looksUp_done v s) e)
  | setMode3 f => exact .write _ _ rfl rfl rfl rfl (by simp) (setter_run (looksUp_done _ s) e)
  | checkInpmux => exact .read _ _ rfl rfl rfl rfl rfl (by simp) (getter_run decInpmux_looksUp e)
  | checkPga => exact .read _ _ rfl rfl rfl rfl rfl (by simp) (getter_run decPga_looksUp e)
  | checkRef => exact .read _ _ rfl rfl rfl rfl rfl (by simp) (getter_run decRef_looksUp e)
  | checkMode0 => exact .read _ _ rfl rfl rfl rfl rfl (by simp) (getter_run decMode0_looksUp e)
  | checkMode1 => exact .read _ _ rfl rfl rfl rfl rfl (by simp) (getter_run decMode1_looksUp e)
  | checkMode2 => exact .read _ _ rfl rfl rfl rfl rfl (by simp) (getter_run (fun _ _ => looksUp_done _ _) e)
  | checkMode3 => exact .read _ _ rfl rfl rfl rfl rfl (by simp) (getter_run (fun _ _ => looksUp_done _ _) e)
  | checkStatus => exact .read _ _ rfl rfl rfl rfl rfl (by simp) (getter_run (fun _ _ => looksUp_done _ _) e)
  | checkId => exact .read _ _ rfl rfl rfl rfl rfl (by simp) (getter_run (fun _ _ => looksUp_done _ _) e)
  | arm => exact .arm _ (accept_eq_next.mp e).2
  | enterWait => cases (accept_eq_next.mp e).2; exact .enterWait
  | waitPolled => exact .waitPolled _ (accept_eq_next.mp e).2
  | waitSignal => exact .waitSignal _ (accept_eq_next.mp e).2
  | readData => exact .readData _ (accept_eq_next.mp e).2
  | finish st raw m g =>
    have e := accept_eq_next.mp (withReference_eq_next.mp e).2
    exact .finish st raw m g _ (by simpa using e.1) e.2
  | collectMeasurement mode m g => exact .collect mode m g _ (accept_eq_next.mp (withReference_eq_next.mp e).2).2
  | stop => exact .control _ _ rfl rfl rfl rfl rfl (by simp) (opStop_run e)
  | calibrateSelf => exact .control _ _ rfl rfl rfl rfl rfl (by simp) (calibrate_run (by simp) e)
  | calibrateSystem => exact .control _ _ rfl rfl rfl rfl rfl (by simp) (calibrate_run (by simp) e)
  | resetPulse => cases (accept_eq_next.mp e).2; exact .resetPulse

end Sys2Proof.Machine
end

