-- ==== Sys2Proof/Laws/PerInstr.lean ====
section
/-!
SUPPORT. The family FrameSpace, one lemma per wire command: its frame has a byte 0 and lies in the frame space of
R50, at most `max(9, 2 + N_DUMMY)` bytes, in every configuration.
-/

namespace Sys2Proof.Laws.FrameSpace

open Sys2Proof Sys2Proof.Machine

/-- The frame of the command has a byte 0 and at most the bytes of the frame space (R50). -/
def Statement (i : Instr) : Prop :=
  ∀ c : Config, 1 ≤ (encode c i).length ∧ (encode c i).length ≤ longestFrame c

/-- The length of the frame of each command. -/
theorem encode_fits (c : Config) (i : Instr) : 1 ≤ (encode c i).length ∧ (encode c i).length ≤ longestFrame c := by
  cases i <;> simp [encode, longestFrame]
  omega

theorem nop : Statement .nop := fun c => encode_fits c _

theorem reset : Statement .reset := fun c => encode_fits c _

theorem start : Statement .start := fun c => encode_fits c _

theorem stop : Statement .stop := fun c => encode_fits c _

theorem rdata : Statement .rdata := fun c => encode_fits c _

theorem syocal : Statement .syocal := fun c => encode_fits c _

theorem gancal : Statement .gancal := fun c => encode_fits c _

theorem sfocal : Statement .sfocal := fun c => encode_fits c _

theorem rreg (a : Addr) : Statement (.rreg a) := fun c => encode_fits c _

theorem wreg (a : Addr) (v : Byte) : Statement (.wreg a v) := fun c => encode_fits c _

theorem lock : Statement .lock := fun c => encode_fits c _

theorem unlock : Statement .unlock := fun c => encode_fits c _

end Sys2Proof.Laws.FrameSpace
end

