-- ==== Sys2Proof/Laws/Steps.lean ====
section
/-!
SUPPORT. What a wire command that answers a next state did, how COLLECT_MEASUREMENT ends, and what a step did:
whole-machine proofs cite `exec_runs` and `step_runs`.
-/

namespace Sys2Proof.Machine

/-! ### Wire commands -/

/-- What a wire command that answers a next state did. -/
inductive ExecRun (s t : State) : Instr → Prop
  | reset (h : t = s.responding (.ok (.frame (frameC3 s.cfg.opReset)))) : ExecRun s t .reset
  | start (h : execOp .arm s = .next t) : ExecRun s t .start
  | stop (h : execOp .stop s = .next t) : ExecRun s t .stop
  | rdata (h : execOp .readData s = .next t) : ExecRun s t .rdata
  | syocal (h : execOp .calibrateSystem s = .next t) : ExecRun s t .syocal
  | sfocal (h : execOp .calibrateSelf s = .next t) : ExecRun s t .sfocal
  | rreg (a : Addr) (h : ReadRun s t) : ExecRun s t (.rreg a)
  | wreg (a : Addr) (v : Byte) (h : WriteRun (s.cfg.regMap.regAt a) s t) : ExecRun s t (.wreg a v)

/-- Every wire command that answers a next state. -/
theorem exec_runs {i : Instr} {s t : State} (e : exec i s = .next t) : ExecRun s t i := by
  cases i with
  | nop => cases e
  | gancal => cases e
  | lock => cases e
  | unlock => cases e
  | reset => cases e; exact .reset rfl
  | start => exact .start e
  | stop => exact .stop e
  | rdata => exact .rdata e
  | syocal => exact .syocal e
  | sfocal => exact .sfocal e
  | rreg a =>
    have e := (accept_eq_next.mp e).2
    unfold addrOperand at e
    cases h : s.cfg.regMap.regAt a with
    | none => rw [h] at e; cases e; exact .rreg a (.unknown _)
    | some r =>
      rw [h] at e
      exact .rreg a (readRegister_run (k := fun v s => done (.byte v) s) (fun _ _ => looksUp_done _ _) e)
  | wreg a v =>
    have e := (accept_eq_next.mp e).2
    unfold addrOperand at e
    refine .wreg a v ?_
    cases h : s.cfg.regMap.regAt a with
    | none => rw [h] at e; cases e; exact .unknown _
    | some r => rw [h] at e; exact writeRegister_run e

/-! ### The ends of an acquisition -/

/-- The four phases end in a number with Idle, or in an error of the acquisition with Fault. -/
theorem collectPhases_ends {g : Nat} (hg : (gainCode g).isSome = true) (m : WaitMode) (ref : Nat) (s : State) :
    ((collectPhases m ref g s).2.acq = .idle ∧ ∃ q, (collectPhases m ref g s).1 = .ok (.millivolts q)) ∨
      ((collectPhases m ref g s).2.acq = .fault ∧ ∃ e, (collectPhases m ref g s).1 = .error e ∧
        (e = .timeout ∨ e = .pgaAlarm ∨ e = .transportFailure)) := by
  have hs := collectPhases_sequenced hg m ref s
  have hok : ∀ v t, collectPhases m ref g s = (.ok v, t) → t.acq = .idle ∧ ∃ q, v = .millivolts q := by
    intro v t h
    obtain ⟨_, _, -, h⟩ := andThen_eq_ok.mp h
    obtain ⟨_, _, -, h⟩ := andThen_eq_ok.mp h
    obtain ⟨d, u, -, h⟩ := andThen_eq_ok.mp h
    rcases finish_cases d.1 d.2 ref g u with ⟨-, e⟩ | ⟨-, -, e⟩ | ⟨-, -, e⟩ <;> rw [e] at h <;> cases h
    exact ⟨rfl, _, rfl⟩
  generalize collectPhases m ref g s = r at hs hok
  obtain ⟨x, u⟩ := r
  cases x with
  | ok v =>
    obtain ⟨h, q, rfl⟩ := hok v u rfl
    exact .inl ⟨h, q, rfl⟩
  | error e =>
    obtain ⟨h, h'⟩ := hs.errors e rfl
    exact .inr ⟨h', e, rfl, h⟩

/-! ### The step -/

/-- The state with the host's next request taken. -/
def State.taking (s : State) (rest : List Request) : State := { s with inbox := rest }

/-- What a step that answers a next state did. -/
inductive StepRun (s : State) : State → Prop
  | waits (h : s.inbox = []) : StepRun s s
  | op (o : HostOp) (rest : List Request) (t : State) (h : s.inbox = .op o :: rest)
      (e : execOp o (s.taking rest) = .next t) : StepRun s t
  | frame (f : List Byte) (i : Instr) (rest : List Request) (t : State) (h : s.inbox = .frame f :: rest)
      (hd : recognise s.cfg f = some i) (e : exec i (s.taking rest) = .next t) : StepRun s t
  | blockReset (rest : List Request) (h : s.inbox = .blockReset :: rest) : StepRun s (s.taking rest).blockReset
  | resetBefore (o : HostOp) (n : Nat) (rest : List Request) (h : s.inbox = .blockResetDuring o n :: rest) :
      StepRun s (s.taking rest).blockReset
  | resetDuring (o : HostOp) (n : Nat) (rest : List Request) (u : State) (h : s.inbox = .blockResetDuring o n :: rest)
      (e : execOp o (s.taking rest) = .next u) : StepRun s ((s.taking rest).abandon u n)

/-- Every step that answers a next state, and that its configuration is legal. -/
theorem step_runs {s t : State} (e : step s = .next t) : s.cfg.legal = true ∧ StepRun s t := by
  unfold step at e
  split at e
  case isFalse => cases e
  case isTrue hl =>
    refine ⟨hl, ?_⟩
    split at e
    case h_1 hi => cases e; exact .waits hi
    case h_2 r rest hi =>
      cases r with
      | op o => exact .op o rest t hi e
      | frame f =>
        simp only [serve, serveFrame] at e
        split at e
        case h_1 i hd => exact .frame f i rest t hi hd e
        case h_2 => cases e
      | blockReset => cases e; exact .blockReset rest hi
      | blockResetDuring o n =>
        simp only [serve, serveResetDuring] at e
        split at e
        case h_1 u hu => cases e; exact .resetDuring o n rest u hi hu
        case h_2 => cases e; exact .resetBefore o n rest hi
        case h_3 => cases e; exact .resetBefore o n rest hi

end Sys2Proof.Machine
end

