-- ==== Sys2Proof/Tests/Slice0.lean ====
section
/-!
SUPPORT. Tests and witnesses. Expected results are the vectors of spec/95_test_vectors.md (named in each comment)
or words written out from the encodings of spec/; each is about one operation or one step on a small state. Each
`witness_…` shows that the hypotheses of a statement of Certificates/Slice0/Obligations.lean can be met, clause by
clause.
-/

open Sys2Proof Sys2Proof.Machine

namespace Sys2Proof.Tests

/-! ### Helpers -/

/-- A field of the next state, none where the outcome is no next state. -/
def after {α : Type} (f : State → α) : Host.Outcome State Fault Refusal → Option α
  | .next t => some (f t)
  | .fault _ => none
  | .refused _ => none

/-- The refusal of an outcome. -/
def refusal : Host.Outcome State Fault Refusal → Option Refusal
  | .next _ => none
  | .fault _ => none
  | .refused r => some r

/-- The response an operation leaves. -/
def answered (o : Host.Outcome State Fault Refusal) : Option Response := (after State.response o).join

/-- The state after reset, with the environment's next replies listed. -/
def withReplies (l : List Reply) : State := { State.reset with replies := l }

/-- A state in an `ACQ` state with a poll budget, replies and samples listed. -/
def at_ (a : Acq) (budget : Nat) (l : List Reply) (d : List Bool) : State :=
  { State.reset with acq := a, replies := l, samples := d, cfg := { Config.default with retryBudget := budget } }

/-- WaitingForData, with `done` whether a WAIT has returned, with replies listed. -/
def waited (done : Bool) (l : List Reply) : State := { at_ .waitingForData 3 l [] with waitDone := done }

/-- The reply to a register read with the value byte `v` (reply byte 0 is 0xFF throughout). -/
def value (v : Byte) : Reply := .bytes [0xFF, 0x21, v]

/-! ### WellFormed: an ill-formed term for each check -/

theorem test_wellFormed_rreg_unnamed : (Instr.rreg 0x0F).wellFormed Config.default = false := by decide

theorem test_wellFormed_wreg_unnamed : (Instr.wreg 0x12 0x00).wellFormed Config.default = false := by decide

theorem test_wellFormed_named : (Instr.rreg 0x10).wellFormed Config.default = true := by decide

/-- U14, U15: each way a configuration is illegal. -/
theorem test_illegal_configurations :
    { Config.default with nDummy := 0 }.legal = false ∧ { Config.default with tResetLowMs := 99 }.legal = false ∧
    { Config.default with offBoth := 7 }.legal = false ∧ { Config.default with offBoth := 4 }.legal = false ∧
    { Config.default with offCrcOnly := 1 }.legal = false ∧
    { Config.default with offCrcOnly := 4, offBoth := 1 }.legal = false ∧
    { Config.default with regMap := { RegMap.default with id := 0x11 } }.legal = false := by decide

/-- R8: a fixed parameter at another value (opcodes, saturation codes); P4 at any value is legal. -/
theorem test_fixed_parameters :
    { Config.default with opStart := 0x09 }.legal = false ∧ { Config.default with opRreg := 0x21 }.legal = false ∧
    { Config.default with opSyocal := 0x19, opSfocal := 0x16 }.legal = false ∧
    { Config.default with satPos := 0x7FFFFE }.legal = false ∧
    { Config.default with tCalSettleMs := some 200 }.legal = true := by decide

theorem test_illegal_tables :
    { Config.default with refPTable := [("A", 0), ("B", 0)] }.legal = false ∧
    { Config.default with pinTable := [("AIN3", 0b0101), ("AIN4", 0b0100)] }.legal = false := by decide

theorem test_default_legal : Config.default.legal = true := by decide

/-! ### Decoding: words written out from the encodings of R71 to R75 and R79 -/

/-- RREG INPMUX: byte 0 001 10001, byte 1 0001 0000, byte 2 zero (F24). -/
theorem test_decode_rreg : decode Config.default [0b00110001, 0b00010000, 0b00000000] = some (.rreg 0b10001) := by
  decide

/-- WREG PGA 0x07: byte 0 010 10000, byte 1 0000 0111 (F25). -/
theorem test_decode_wreg :
    decode Config.default [0b01010000, 0b00000111, 0b00000000, 0b00000000, 0b00000000] =
      some (.wreg 0b10000 0b00000111) := by decide

/-- START: 0000 1000, 0001 0000, 0 (S14). -/
theorem test_decode_start : decode Config.default [0b00001000, 0b00010000, 0b00000000] = some .start := by decide

/-- STOP: 0000 1010 (S15). -/
theorem test_decode_stop : decode Config.default [0b00001010, 0b00010000, 0b00000000] = some .stop := by decide

/-- RDATA: 0001 0010 and eight zero bytes (S13). -/
theorem test_decode_rdata : decode Config.default [0b00010010, 0, 0, 0, 0, 0, 0, 0, 0] = some .rdata := by decide

/-- SYOCAL 0001 0110 and SFOCAL 0001 1001 (S16). -/
theorem test_decode_calibrations :
    decode Config.default [0b00010110, 0b00010000] = some .syocal ∧
    decode Config.default [0b00011001, 0b00010000] = some .sfocal := by decide

/-- RESET 0000 0110, NOP 0000 0000, GANCAL 0001 0111, LOCK 1111 0010, UNLOCK 1111 0101 (R79). -/
theorem test_decode_parameter_opcodes :
    decode Config.default [0b00000110, 0b00010000, 0b00000000] = some .reset ∧
    decode Config.default [0b00000000] = some .nop ∧ decode Config.default [0b00010111] = some .gancal ∧
    decode Config.default [0b11110010] = some .lock ∧ decode Config.default [0b11110101] = some .unlock := by decide

/-- R81: bytes that are no frame the block emits. -/
theorem test_decode_refuses :
    decode Config.default [0b01100000] = none ∧ decode Config.default [0b01010000] = none ∧
    decode Config.default [] = none := by decide

/-- R89: a frame with another byte 1, a byte too many or a byte too few is not the frame. -/
theorem test_recognise_byte_for_byte :
    recognise Config.default [0x08, 0x10, 0x00] = some .start ∧ recognise Config.default [0x08, 0x55, 0x00] = none ∧
    recognise Config.default [0x08, 0x10, 0x00, 0x00] = none ∧ recognise Config.default [0x31, 0x10] = none ∧
    recognise Config.default [0x50, 0x07, 0x00, 0x00, 0x00] = some (.wreg 0x10 0x07) := by decide

/-- F23: no carry from the address into the base. -/
theorem test_encode_top_address :
    encode Config.default (.rreg 0x1F) = [0x3F, 0x10, 0x00] ∧
    encode Config.default (.wreg 0x1F 0x01) = [0x5F, 0x01, 0x00, 0x00, 0x00] := by decide

/-! ### Builders and parsers (F, Q) -/

/-- F8: three dummy bytes. -/
theorem test_build_rreg :
    answered (execOp (.buildRreg "PGA") { State.reset with cfg := { Config.default with nDummy := 3 } }) =
      some (.ok (.frame [0x30, 0x10, 0x00, 0x00, 0x00])) := by decide

/-- F9. -/
theorem test_build_rreg_unknown :
    answered (execOp (.buildRreg "FOO") State.reset) = some (.err (.unknownIdentifier (.name "FOO"))) := by decide

/-- F15. -/
theorem test_build_wreg :
    answered (execOp (.buildWreg "FSCAL2" 0x40) State.reset) =
      some (.ok (.frame [0x4C, 0x40, 0x00, 0x00, 0x00])) := by decide

/-- F17 to F22. -/
theorem test_build_constants :
    answered (execOp .buildStart State.reset) = some (.ok (.frame [0x08, 0x10, 0x00])) ∧
    answered (execOp .buildStop State.reset) = some (.ok (.frame [0x0A, 0x10, 0x00])) ∧
    answered (execOp .buildReset State.reset) = some (.ok (.frame [0x06, 0x10, 0x00])) ∧
    answered (execOp .buildRdata State.reset) = some (.ok (.frame [0x12, 0, 0, 0, 0, 0, 0, 0, 0])) ∧
    answered (execOp .buildSyocal State.reset) = some (.ok (.frame [0x16, 0x10])) ∧
    answered (execOp .buildSfocal State.reset) = some (.ok (.frame [0x19, 0x10])) := by decide

/-- Q2 (the echo is not checked) and Q3. -/
theorem test_parse_rreg :
    answered (execOp (.parseRreg [0x00, 0x00, 0x07]) State.reset) = some (.ok (.byte 0x07)) ∧
    answered (execOp (.parseRreg [0xFF, 0x30, 0x07, 0x99, 0x98]) State.reset) = some (.ok (.byte 0x07)) := by decide

/-- Q5, Q6. -/
theorem test_parse_rdata :
    answered (execOp (.parseRdata [0xFF, 0x12, 0x04, 0x12, 0x34, 0x56, 0xBB, 0xCC, 0xDD] true false) State.reset) =
      some (.ok (.sample (some 0x04) 0x123456)) ∧
    answered (execOp (.parseRdata [0xFF, 0x12, 0x00, 0xC1, 0x12, 0x34, 0x56, 0x77, 0xDD] false true) State.reset) =
      some (.ok (.sample none 0x123456)) := by decide

/-- Q7 (status at 4), Q10 (too short). -/
theorem test_parse_rdata_both :
    answered (execOp (.parseRdata [0xFF, 0x12, 0x00, 0xC1, 0x24, 0x12, 0x34, 0x56, 0x77] true true) State.reset) =
      some (.ok (.sample (some 0x24) 0x123456)) ∧
    refusal (execOp (.parseRdata [0xFF, 0x12, 0x40, 0x00] false false) State.reset) = some .arrayTooShort := by decide

/-! ### Field codecs (E) -/

/-- E1, E3. -/
theorem test_enc_inpmux :
    answered (execOp (.encInpmux "AIN3" (some "AIN4")) State.reset) = some (.ok (.byte 0x45)) ∧
    answered (execOp (.encInpmux "AIN3" none) State.reset) = some (.ok (.byte 0x40)) := by decide

/-- E9: the second operand is unknown. -/
theorem test_enc_inpmux_unknown :
    answered (execOp (.encInpmux "AIN3" (some "AIN10")) State.reset) =
      some (.err (.unknownIdentifier (.name "AIN10"))) := by decide

/-- E10. -/
theorem test_dec_inpmux :
    answered (execOp (.decInpmux 0x45) State.reset) = some (.ok (.inputPair "AIN3" "AIN4")) := by decide

/-- E13, E14. -/
theorem test_enc_pga :
    answered (execOp (.encPga true 128) State.reset) = some (.ok (.byte 0x87)) ∧
    answered (execOp (.encPga false 256) State.reset) = some (.err (.unknownIdentifier (.number 256))) := by decide

/-- E16: bits 6:3 are ignored. -/
theorem test_dec_pga :
    answered (execOp (.decPga 0x7F) State.reset) = some (.ok (.pga false 128)) ∧
    answered (execOp (.decPga 0x78) State.reset) = some (.ok (.pga false 1)) := by decide

/-- E20. -/
theorem test_enc_mode0 :
    answered (execOp (.encMode0 "1200" "sinc3") State.reset) = some (.ok (.byte 0x4A)) ∧
    answered (execOp (.encMode0 "60" "sinc4") State.reset) = some (.ok (.byte 0x33)) := by decide

/-- E22, E23. -/
theorem test_dec_mode0 :
    answered (execOp (.decMode0 0x4A) State.reset) = some (.ok (.mode0 "1200" "sinc3")) ∧
    answered (execOp (.decMode0 0x88) State.reset) = some (.err (.unknownIdentifier (.pattern 5 17))) := by decide

/-- E26, E27. -/
theorem test_enc_mode1 :
    answered (execOp (.encMode1 "ac4wire" "pulse" "17.8ms") State.reset) = some (.ok (.byte 0x7D)) ∧
    answered (execOp (.encMode1 "ac2wire" "continuous" "328us") State.reset) = some (.ok (.byte 0x47)) := by decide

/-- E30, E31. -/
theorem test_dec_mode1 :
    answered (execOp (.decMode1 0x0E) State.reset) = some (.err (.unknownIdentifier (.pattern 4 14))) ∧
    answered (execOp (.decMode1 0x81) State.reset) = some (.ok (.mode1 "normal" "continuous" "50us")) := by decide

/-- E33, E34. -/
theorem test_enc_ref :
    answered (execOp (.encRef true "AIN0" "AIN3") State.reset) = some (.ok (.byte 0x1B)) ∧
    answered (execOp (.encRef false "AVSS" "AVSS") State.reset) =
      some (.err (.unknownIdentifier (.name "AVSS"))) := by decide

/-- E35: bits 7:5 are ignored. -/
theorem test_dec_ref :
    answered (execOp (.decRef 0xE5) State.reset) = some (.ok (.reference false "AVDD" "AVSS")) := by decide

/-- E37. -/
theorem test_enc_mode3 :
    answered (execOp (.encMode3 ⟨false, false, false, true, false, false, false, false⟩) State.reset) =
      some (.ok (.byte 0x10)) ∧
    answered (execOp (.encMode3 ⟨false, false, false, false, true, false, false, true⟩) State.reset) =
      some (.ok (.byte 0x09)) := by decide

/-- E38. -/
theorem test_dec_mode3 :
    answered (execOp (.decMode3 0x60) State.reset) =
      some (.ok (.mode3 ⟨false, true, true, false, false, false, false, false⟩)) := by decide

/-- E39, and the 0x20 of E40. -/
theorem test_dec_status :
    answered (execOp (.decStatus 0x05) State.reset) =
      some (.ok (.status ⟨false, false, false, false, false, true, false, true⟩)) ∧
    answered (execOp (.decStatus 0x20) State.reset) =
      some (.ok (.status ⟨false, false, true, false, false, false, false, false⟩)) := by decide

/-! ### The converter (M) -/

/-- M2, M3. -/
theorem test_millivolts_ends :
    millivolts 0x7FFFFF 5000 1 = 41943035000 / 8388608 ∧ millivolts 0x800000 5000 1 = -5000 := by
  have h : s24 0x7FFFFF = 8388607 ∧ s24 0x800000 = -8388608 := by decide
  simp only [millivolts, h, Rat.mkRat_eq_div]
  norm_num

/-- M18. -/
theorem test_millivolts_negative : millivolts 0xEDCBAA 2500 32 = -(372826875 / 33554432) := by
  have h : s24 0xEDCBAA = -1193046 := by decide
  simp only [millivolts, h, Rat.mkRat_eq_div]
  norm_num

/-- M25. -/
theorem test_raw24_bad_gain :
    answered (execOp (.raw24ToMv 0x40 0x00 0x00 5000 3) State.reset) =
      some (.err (.unknownIdentifier (.number 3))) := by decide

/-- U21: 65536 is no 16-bit reference. -/
theorem test_raw24_bad_reference :
    refusal (execOp (.raw24ToMv 0x40 0x00 0x00 65536 1) State.reset) = some .referenceOutOfRange := by decide

/-! ### Register access (A) -/

/-- A1: the shadow stays empty. -/
theorem test_read_register :
    answered (execOp (.readRegister "PGA") (withReplies [.bytes [0xFF, 0x30, 0x07]])) = some (.ok (.byte 0x07)) ∧
    after State.sh (execOp (.readRegister "PGA") (withReplies [.bytes [0xFF, 0x30, 0x07]])) =
      some Shadows.empty := by decide

/-- A3. -/
theorem test_read_register_fails :
    answered (execOp (.readRegister "ID") (withReplies [.fails])) = some (.err .transportFailure) ∧
    after State.acq (execOp (.readRegister "ID") (withReplies [.fails])) = some .idle := by decide

/-- A4. -/
theorem test_write_register :
    after (fun t => (t.response, t.sh.pga))
      (execOp (.writeRegister "PGA" 0x07) (withReplies [.bytes [0, 0, 0, 0, 0], .bytes [0xFF, 0x30, 0x07]])) =
      some (some (.ok .unit), some 0x07) := by decide

/-- A5. -/
theorem test_write_register_mismatch :
    after (fun t => (t.response, t.sh.pga))
      (execOp (.writeRegister "PGA" 0x07) (withReplies [.bytes [0, 0, 0, 0, 0], .bytes [0xFF, 0x30, 0x00]])) =
      some (some (.err (.verificationFailed .pga 0x07 0x00)), none) := by decide

/-- A7: a mismatch on STATUS is no error. -/
theorem test_wreg_status :
    after (fun t => (t.response, t.sh))
      (exec (.wreg 0x01 0x00) (withReplies [.bytes [0, 0, 0, 0, 0], .bytes [0xFF, 0x21, 0x05]])) =
      some (some (.ok .unit), Shadows.empty) := by decide

/-- A9: no verify read after a failed write. -/
theorem test_wreg_fails :
    after (fun t => (t.response, sentFrames t.history)) (exec (.wreg 0x10 0x07) (withReplies [.fails])) =
      some (some (.err .transportFailure), [[0x50, 0x07, 0x00, 0x00, 0x00]]) := by decide

/-- A1 as a wire command; an address of no register. -/
theorem test_rreg :
    answered (exec (.rreg 0x10) (withReplies [.bytes [0xFF, 0x30, 0x07]])) = some (.ok (.byte 0x07)) ∧
    answered (exec (.rreg 0x0F) State.reset) = some (.err (.unknownIdentifier (.number 15))) := by decide

/-- A11, A12. -/
theorem test_set_inpmux :
    after (fun t => (sentFrames t.history, t.sh.inpmux)) (execOp (.setInpmux "AIN3" (some "AIN4"))
      (withReplies [.bytes [0, 0, 0, 0, 0], .bytes [0xFF, 0x31, 0x45]])) =
      some ([[0x51, 0x45, 0, 0, 0], [0x31, 0x10, 0x00]], some 0x45) ∧
    after (fun t => t.history) (execOp (.setInpmux "AIN10" (some "AIN4")) State.reset) = some [] := by decide

/-- A13. -/
theorem test_set_pga :
    after (fun t => t.sh.pga) (execOp (.setPga false 128)
      (withReplies [.bytes [0, 0, 0, 0, 0], .bytes [0xFF, 0x30, 0x07]])) = some (some 0x07) := by decide

/-- A14. -/
theorem test_set_ref :
    after (fun t => (sentFrames t.history, t.sh.ref)) (execOp (.setRef true "INT_P" "INT_N")
      (withReplies [.bytes [0, 0, 0, 0, 0], .bytes [0xFF, 0x26, 0x10]])) =
      some ([[0x46, 0x10, 0, 0, 0], [0x26, 0x10, 0x00]], some 0x10) := by decide

/-- A15. -/
theorem test_set_mode0 :
    after (fun t => (sentFrames t.history, t.sh.mode0)) (execOp (.setMode0 "20" "fir")
      (withReplies [.bytes [0, 0, 0, 0, 0], .bytes [0xFF, 0x22, 0x24]])) =
      some ([[0x42, 0x24, 0, 0, 0], [0x22, 0x10, 0x00]], some 0x24) := by decide

/-- A16. -/
theorem test_set_mode1 :
    after (fun t => (sentFrames t.history, t.sh.mode1)) (execOp (.setMode1 "normal" "continuous" "50us")
      (withReplies [.bytes [0, 0, 0, 0, 0], .bytes [0xFF, 0x23, 0x01]])) =
      some ([[0x43, 0x01, 0, 0, 0], [0x23, 0x10, 0x00]], some 0x01) := by decide

/-- A17. -/
theorem test_set_mode2 :
    after (fun t => (sentFrames t.history, t.sh.mode2)) (execOp (.setMode2 0x00)
      (withReplies [.bytes [0, 0, 0, 0, 0], .bytes [0xFF, 0x24, 0x00]])) =
      some ([[0x44, 0x00, 0, 0, 0], [0x24, 0x10, 0x00]], some 0x00) := by decide

/-- A18. -/
theorem test_set_mode3 :
    after (fun t => (t.sh.mode3, t.layout)) (execOp (.setMode3 ⟨false, true, false, false, false, false, false, false⟩)
      (withReplies [.bytes [0, 0, 0, 0, 0], .bytes [0xFF, 0x25, 0x40]])) = some (some 0x40, (true, false)) := by decide

/-- A19, A20. -/
theorem test_check_inpmux_pga :
    answered (execOp .checkInpmux (withReplies [.bytes [0xFF, 0x31, 0x45]])) =
      some (.ok (.inputPair "AIN3" "AIN4")) ∧
    answered (execOp .checkPga (withReplies [.bytes [0xFF, 0x30, 0x87]])) = some (.ok (.pga true 128)) := by decide

/-- A21, A24. -/
theorem test_check_ref_mode2 :
    answered (execOp .checkRef (withReplies [.bytes [0xFF, 0x26, 0x05]])) =
      some (.ok (.reference false "AVDD" "AVSS")) ∧
    answered (execOp .checkMode2 (withReplies [.bytes [0xFF, 0x24, 0x5A]])) = some (.ok (.byte 0x5A)) := by decide

/-- A22, A23: the error comes after the exchange. -/
theorem test_check_mode0_mode1 :
    after (fun t => (t.response, sentFrames t.history)) (execOp .checkMode0 (withReplies [.bytes [0xFF, 0x22, 0xFF]])) =
      some (some (.err (.unknownIdentifier (.pattern 5 31))), [[0x22, 0x10, 0x00]]) ∧
    answered (execOp .checkMode1 (withReplies [.bytes [0xFF, 0x23, 0x0E]])) =
      some (.err (.unknownIdentifier (.pattern 4 14))) := by decide

/-- R187: a failed exchange of a getter. -/
theorem test_check_fails :
    after (fun t => (t.response, t.acq, t.history)) (execOp .checkStatus (withReplies [.fails])) =
      some (some (.err .transportFailure), .idle, [.xchg [0x21, 0x10, 0x00] none]) := by decide

/-- A25: the layout does not follow a read. -/
theorem test_check_mode3 :
    after (fun t => (t.response, t.layout)) (execOp .checkMode3
      { withReplies [.bytes [0xFF, 0x25, 0x40]] with sh := { Shadows.empty with mode3 := some 0x00 } }) =
      some (some (.ok (.mode3 ⟨false, true, false, false, false, false, false, false⟩)), (false, false)) := by decide

/-- A26, A27. -/
theorem test_check_status_id :
    answered (execOp .checkStatus (withReplies [.bytes [0xFF, 0x21, 0x05]])) =
      some (.ok (.status ⟨false, false, false, false, false, true, false, true⟩)) ∧
    answered (execOp .checkId (withReplies [.bytes [0xFF, 0x20, 0x80]])) = some (.ok (.byte 0x80)) := by decide

/-- Z1: no value seven times. -/
theorem test_device_config :
    answered (execOp .deviceConfig State.reset) =
      some (.ok (.deviceConfig ⟨none, none, none, none, none, none, none⟩)) := by decide

/-! ### The sequencer (B) -/

/-- B1, B3. -/
theorem test_start :
    after (fun t => (t.acq, sentFrames t.history)) (exec .start (withReplies [.bytes [0, 0, 0]])) =
      some (.armed, [[0x08, 0x10, 0x00]]) ∧
    after (fun t => (t.acq, t.response)) (exec .start (withReplies [.fails])) =
      some (.fault, some (.err .transportFailure)) := by decide

/-- B4. -/
theorem test_arm_not_accepted : refusal (execOp .arm (at_ .armed 3 [] [])) = some .notAccepted := by decide

/-- B5: ready on the last poll of the budget. -/
theorem test_wait_polled :
    after (fun t => (t.response, t.acq, t.polls))
      (execOp .waitPolled (at_ .armed 3 [value 0x00, value 0x01, value 0x04] [])) =
      some (some (.ok .unit), .waitingForData, 3) := by decide

/-- B6: every bit but bit 2. -/
theorem test_wait_polled_timeout :
    after (fun t => (t.response, t.acq, t.polls))
      (execOp .waitPolled (at_ .armed 3 [value 0x00, value 0x01, value 0xFB] [])) =
      some (some (.err .timeout), .fault, 3) := by decide

/-- B10, B11. -/
theorem test_wait_signal :
    after (fun t => (t.acq, t.polls, sentFrames t.history)) (execOp .waitSignal (at_ .armed 1000 [] [true, true, false])) =
      some (.waitingForData, 3, []) ∧
    after State.polls (execOp .waitSignal (at_ .armed 1000 [] [false])) = some 1 := by decide

/-- R211. -/
theorem test_enter_wait :
    after (fun t => (t.acq, t.polls)) (execOp .enterWait { at_ .armed 3 [] [] with polls := 2 }) =
      some (.waitingForData, 0) := by decide

/-- B13. -/
theorem test_rdata :
    after (fun t => (t.response, t.acq)) (exec .rdata
      (waited true [.bytes [0xFF, 0x12, 0x40, 0x00, 0x00, 0, 0, 0, 0]])) =
      some (some (.ok (.sample none 0x400000)), .dataAvailable) := by decide

/-- R215: after ENTER_WAIT alone no WAIT has returned, whatever `POLLS` and an earlier wait left; after WAIT_SIGNAL one
has. -/
theorem test_rdata_before_wait :
    after (fun t => refusal (execOp .readData { t with polls := 2 }))
      (execOp .enterWait { at_ .armed 3 [] [] with waitDone := true }) = some (some .notAccepted) ∧
    after (fun t => (t.waitDone, after State.acq (execOp .readData t)))
      (execOp .waitSignal (at_ .armed 3 [.bytes [0xFF, 0x12, 0x40, 0x00, 0x00, 0, 0, 0, 0]] [true, false])) =
      some (true, some .dataAvailable) := by decide

/-- B14: with the status byte. -/
theorem test_rdata_status :
    answered (execOp .readData { waited true [.bytes [0xFF, 0x12, 0x04, 0x40, 0x00, 0x00, 0, 0, 0]] with
      sh := { Shadows.empty with mode3 := some 0x40 } }) = some (.ok (.sample (some 0x04) 0x400000)) := by decide

/-- B19, B20. -/
theorem test_alarm :
    alarm Config.default (some 0xCF) 0x7FFFFE = false ∧ alarm Config.default none 0x7FFFFF = false ∧
    alarm { Config.default with satCheckWithoutStatus := true } none 0x7FFFFF = true ∧
    alarm Config.default (some 0x14) 0x000100 = true := by decide

/-- B22, B23. -/
theorem test_finish :
    after (fun t => (t.response, t.acq)) (execOp (.finish (some 0x24) 0x400000 5000 1) (at_ .dataAvailable 3 [] [])) =
      some (some (.err .pgaAlarm), .fault) ∧
    after (fun t => (t.response, t.acq)) (execOp (.finish none 0x400000 5000 3) (at_ .dataAvailable 3 [] [])) =
      some (some (.err (.unknownIdentifier (.number 3))), .dataAvailable) := by decide

/-- B24: no exchange. -/
theorem test_collect_bad_gain :
    after (fun t => (t.response, t.history)) (execOp (.collectMeasurement "Polled" 5000 3) State.reset) =
      some (some (.err (.unknownIdentifier (.number 3))), []) := by decide

/-- P3 step 2: the saturated sample ends in the alarm after four samples of the line. -/
theorem test_collect_alarm :
    after (fun t => (t.response, t.acq, t.polls)) (execOp (.collectMeasurement "SignalDriven" 2500 128)
      { at_ .idle 1000 [.bytes [0, 0, 0], .bytes [0xFF, 0x12, 0x04, 0x7F, 0xFF, 0xFF, 0, 0, 0]]
          [true, true, true, false] with sh := { Shadows.empty with mode3 := some 0x40 } }) =
      some (some (.err .pgaAlarm), .fault, 4) := by decide

/-- B25. -/
theorem test_stop :
    after (fun t => (t.response, t.acq, sentFrames t.history)) (exec .stop (withReplies [.bytes [0, 0, 0]])) =
      some (some (.ok .unit), .idle, [[0x0A, 0x10, 0x00]]) := by decide

/-- B26: accepted in Fault, the delay last. -/
theorem test_sfocal :
    after (fun t => (t.response, t.acq, t.history.getLast?)) (exec .sfocal (at_ .fault 3 [.bytes [0, 0]] [])) =
      some (some (.ok .unit), .fault, some (.delay .calSettle)) := by decide

/-- B27. -/
theorem test_syocal :
    after (fun t => (t.response, sentFrames t.history)) (exec .syocal (withReplies [.bytes [0, 0]])) =
      some (some (.ok .unit), [[0x16, 0x10]]) := by decide

/-- B28: the shadow is still valid. -/
theorem test_reset_pulse :
    after (fun t => (t.acq, t.sh.mode3, sentFrames t.history)) (execOp .resetPulse
      { at_ .fault 3 [] [] with sh := { Shadows.empty with mode3 := some 0x40 } }) =
      some (.idle, some 0x40, []) := by decide

/-- F19: RESET is built, nothing is sent. -/
theorem test_reset :
    after (fun t => (t.response, t.history)) (exec .reset State.reset) =
      some (some (.ok (.frame [0x06, 0x10, 0x00])), []) := by decide

/-- R107. -/
theorem test_no_builder :
    refusal (exec .nop State.reset) = some (.noBuilder .nop) ∧
    refusal (exec .gancal State.reset) = some (.noBuilder .gancal) ∧
    refusal (exec .lock State.reset) = some (.noBuilder .lock) ∧
    refusal (exec .unlock State.reset) = some (.noBuilder .unlock) := by decide

/-! ### The step (Z) -/

/-- In the middle of an acquisition, with the host's next request the block's reset. -/
def resetInFlight : State :=
  { at_ .waitingForData 3 [] [] with
    polls := 2, sh := { Shadows.empty with mode3 := some 0x60 }, inbox := [.blockReset] }

/-- Z1, from that state. -/
theorem test_block_reset :
    after State.sh (step resetInFlight) = some Shadows.empty ∧ after State.acq (step resetInFlight) = some .idle ∧
    after State.polls (step resetInFlight) = some 0 ∧ after State.layout (step resetInFlight) = some (false, false) ∧
    after State.history (step resetInFlight) = some [] := by decide

/-- U24: cut after the write exchange, no verify read is issued and no shadow holds a value. -/
theorem test_reset_during_write :
    after (fun t => (t.sh, t.response, sentFrames t.history, t.replies))
      (step { withReplies [.bytes [0, 0, 0, 0, 0], .bytes [0xFF, 0x30, 0x07]] with
        inbox := [.blockResetDuring (.writeRegister "PGA" 0x07) 1] }) =
      some (Shadows.empty, none, [[0x50, 0x07, 0, 0, 0]], [.bytes [0xFF, 0x30, 0x07]]) := by decide

/-- A word of the opcode table as the host's next request, the constant bytes given or left out (log entry 5); a byte
that is given is not replaced, a zero included (R89). -/
theorem test_step_word :
    after State.response (step (State.reset.withFetchWord 24 0x001006)) =
      some (some (.ok (.frame [0x06, 0x10, 0x00]))) ∧
    after State.response (step (State.reset.withFetchWord 8 0x06)) =
      some (some (.ok (.frame [0x06, 0x10, 0x00]))) ∧
    refusal (step (State.reset.withFetchWord 8 0x60)) = some .notACommandFrame ∧
    refusal (step (State.reset.withFetchWord 24 0x005506)) = some .notACommandFrame ∧
    refusal (step (State.reset.withFetchWord 24 0x000006)) = some .notACommandFrame ∧
    refusal (step (State.reset.withFetchWord 24 0x000008)) = some .notACommandFrame := by decide

/-- Words with the operand bytes given: RREG, and WREG with its value, with and without the bytes after them; and WREG
with its value left out (log entry 31). -/
theorem test_word_operands :
    (State.reset.withFetchWord 8 0x30).inbox = [.frame [0x30, 0x10, 0x00]] ∧
    (State.reset.withFetchWord 24 0x001030).inbox = [.frame [0x30, 0x10, 0x00]] ∧
    (State.reset.withFetchWord 8 0x50).inbox = [.frame [0x50, 0x00, 0x00, 0x00, 0x00]] ∧
    (State.reset.withFetchWord 16 0x0750).inbox = [.frame [0x50, 0x07, 0x00, 0x00, 0x00]] ∧
    (State.reset.withFetchWord 40 0x0750).inbox = [.frame [0x50, 0x07, 0x00, 0x00, 0x00]] ∧
    (State.reset.withFetchWord 8 0x12).inbox = [.frame [0x12, 0, 0, 0, 0, 0, 0, 0, 0]] ∧
    (State.reset.withFetchWord 8 0xF2).inbox = [.frame [0xF2]] := by decide

/-- R89: START with another byte 1 is not served. -/
theorem test_step_other_byte :
    refusal (step { State.reset with inbox := [.frame [0x08, 0x55, 0x00]] }) = some .notACommandFrame ∧
    after State.acq (step { withReplies [.bytes [0, 0, 0]] with inbox := [.frame [0x08, 0x10, 0x00]] }) =
      some .armed := by decide

/-! ### Witnesses: the hypotheses of each statement can be met -/

/-- A state in the middle of nothing with a legal configuration whose parameters are not the defaults. -/
def other : State :=
  { State.reset with cfg := { Config.default with nDummy := 3, retryBudget := 0, satCheckWithoutStatus := true } }

theorem witness_DecodeOfEncodeGivesTheCommand :
    Config.default.fixedLegal = true ∧ Config.default.opcodesDisjoint = true ∧
    { Config.default with opNop := 0x61 }.opcodesDisjoint = true := by decide

theorem witness_ConstantBuildersReturnTheirFrames : State.reset.cfg.legal = true ∧ other.cfg.legal = true := by decide

theorem witness_FramesNameTheirCommand :
    other.cfg.legal = true ∧ Config.default.legal = true ∧ Config.default.opcodesDisjoint = true ∧
    encode Config.default .lock = encode Config.default .lock := by decide

theorem witness_RegisterBuildersReturnTheirFrames :
    State.reset.cfg.legal = true ∧
    [0x2E, 0x10, 0x00] = [0x20 + (State.reset.cfg.regMap.addr .imag).setWidth 8, 0x10] ++
      List.replicate State.reset.cfg.nDummy 0x00 ∧
    [0x4E, 0xA5, 0x00, 0x00, 0x00] = [0x40 + (State.reset.cfg.regMap.addr .imag).setWidth 8, 0xA5, 0x00, 0x00, 0x00] ∧
    RegId.ofName "FOO" = none := by decide

theorem witness_ParseRregTakesByteTwo :
    ([0xFF, 0x30] : List Byte).length < 3 ∧ ([0xFF, 0x30, 0x07] : List Byte)[2]? = some 0x07 := by decide

/-- One byte too few, and exactly enough, in the layouts (0, 0) and (1, 1). -/
theorem witness_ParseRdataTakesTheLayoutsBytes :
    ([0xFF, 0x12, 0x40, 0x00] : List Byte).length < 2 + 3 ∧
    ([0xFF, 0x12, 0x40, 0x00, 0x01] : List Byte)[2]? = some 0x40 ∧
    ([0xFF, 0x12, 0x40, 0x00, 0x01] : List Byte)[2 + 1]? = some 0x00 ∧
    ([0xFF, 0x12, 0x40, 0x00, 0x01] : List Byte)[2 + 2]? = some 0x01 ∧ State.reset.cfg.offBoth = 5 ∧
    ([0xFF, 0x12, 0, 0, 0x24, 0x12, 0x34] : List Byte).length < 5 + 3 ∧
    ([0xFF, 0x12, 0, 0, 0x24, 0x12, 0x34, 0x56] : List Byte)[5 + 2]? = some 0x56 := by decide

theorem witness_DecodeOfEncodedFieldsGivesTheOptions :
    State.reset.cfg.legal = true ∧ encInpmux "VCOM" none State.reset = (.ok 0xF0, State.reset) ∧
    encPga true 128 State.reset = (.ok 0x87, State.reset) ∧
    encMode0 "40000" "fir" State.reset = (.ok 0x84, State.reset) ∧
    encMode1 "ac4wire" "pulse" "17.8ms" State.reset = (.ok 0x7D, State.reset) ∧
    encRef true "AIN2" "AIN3" State.reset = (.ok 0x1F, State.reset) := by
  refine ⟨by decide, rfl, rfl, rfl, rfl, rfl⟩

theorem witness_EncodeOfDecodedByteGivesTheByte :
    State.reset.cfg.legal = true ∧ decInpmux 0xFF State.reset = (.ok (.inputPair "VCOM" "VCOM"), State.reset) ∧
    decPga 0x87 State.reset = (.ok (.pga true 128), State.reset) ∧ (0x87 : Byte).extractLsb' 3 4 = 0#4 ∧
    decMode0 0x84 State.reset = (.ok (.mode0 "40000" "fir"), State.reset) ∧
    decMode1 0x7D State.reset = (.ok (.mode1 "ac4wire" "pulse" "17.8ms"), State.reset) ∧
    (0x7D : Byte).getLsbD 7 = false ∧
    decRef 0x1F State.reset = (.ok (.reference true "AIN2" "AIN3"), State.reset) ∧
    (0x1F : Byte).extractLsb' 5 3 = 0#3 ∧ decPga 0x7F State.reset = (.ok (.pga false 128), State.reset) := by
  refine ⟨by decide, rfl, rfl, rfl, rfl, rfl, rfl, rfl, rfl, rfl⟩

/-- Each encoder gives a byte for known options, the last of their tables among them. -/
theorem witness_RegisterBytesPlaceTheirFields :
    encInpmux "AIN3" none State.reset = (.ok 0x40, State.reset) ∧
    encPga true 128 State.reset = (.ok 0x87, State.reset) ∧ (7 : Nat) < 8 ∧ 128 = 2 ^ 7 ∧
    encRef true "AIN0" "AIN3" State.reset = (.ok 0x1B, State.reset) ∧
    encMode0 "40000" "fir" State.reset = (.ok 0x84, State.reset) ∧
    encMode1 "ac4wire" "pulse" "17.8ms" State.reset = (.ok 0x7D, State.reset) := by
  refine ⟨rfl, rfl, by decide, by decide, rfl, rfl, rfl⟩

/-- A legal configuration whose tables are narrower than the defaults. -/
def narrow : Config :=
  { Config.default with
    pinTable := [("AIN3", 0b0100), ("AIN4", 0b0101)], refPTable := [("AVDD", 1)], refNTable := [("AVSS", 1)],
    chopTable := [("normal", 0)], convTable := [("pulse", 1)], delayTable := [("0us", 0)] }

/-- Narrow legal tables, each field the first unmapped one and none unmapped; then at the defaults the patterns on both
sides of each end of a table. -/
theorem witness_UnmappedPatternsRaiseUnknownIdentifier :
    narrow.legal = true ∧
    (Table.dec narrow.pinTable 0 = none ∧ Table.dec narrow.pinTable 4 = some "AIN3" ∧
      Table.dec narrow.pinTable 5 = some "AIN4") ∧
    (Table.dec narrow.refPTable 0 = none ∧ Table.dec narrow.refPTable 1 = some "AVDD" ∧
      Table.dec narrow.refNTable 0 = none ∧ Table.dec narrow.refNTable 1 = some "AVSS") ∧
    (Table.dec narrow.rateTable 17 = none ∧ Table.dec narrow.rateTable 16 = some "40000" ∧
      Table.dec narrow.filterTable 5 = none ∧ Table.dec narrow.filterTable 4 = some "fir") ∧
    (Table.dec narrow.chopTable 1 = none ∧ Table.dec narrow.chopTable 0 = some "normal" ∧
      Table.dec narrow.convTable 0 = none ∧ Table.dec narrow.convTable 1 = some "pulse" ∧
      Table.dec narrow.delayTable 1 = none ∧ Table.dec narrow.delayTable 0 = some "0us") ∧
    State.reset.cfg = Config.default ∧ 17 ≤ ((0x88 : Byte).extractLsb' 3 5).toNat ∧
    ((0x85 : Byte).extractLsb' 3 5).toNat < 17 ∧ 5 ≤ ((0x85 : Byte).extractLsb' 0 3).toNat ∧
    ((0x84 : Byte).extractLsb' 3 5).toNat < 17 ∧ ((0x84 : Byte).extractLsb' 0 3).toNat < 5 ∧
    14 ≤ ((0x0E : Byte).extractLsb' 0 4).toNat ∧ ((0x0D : Byte).extractLsb' 0 4).toNat < 14 := by
  refine ⟨by decide, by decide, by decide, by decide, by decide, rfl, by decide, by decide, by decide, by decide,
    by decide, by decide, by decide⟩

/-- Each option in turn the first unknown one; a legal configuration without AINCOM. -/
theorem witness_UnknownOptionEndsASetterBeforeAnyExchange :
    State.reset.acq.resting = true ∧ Table.enc State.reset.cfg.pinTable "AIN10" = none ∧
    Table.enc State.reset.cfg.pinTable "AIN3" = some 4 ∧ 3 ∉ [1, 2, 4, 8, 16, 32, 64, 128] ∧
    Table.enc narrow.pinTable "AIN3" = some 4 ∧ Table.enc narrow.pinTable "AINCOM" = none ∧
    Table.enc State.reset.cfg.refPTable "AVSS" = none ∧ Table.enc State.reset.cfg.refPTable "AVDD" = some 1 ∧
    Table.enc State.reset.cfg.refNTable "AVDD" = none ∧ Table.enc State.reset.cfg.rateTable "30" = none ∧
    Table.enc State.reset.cfg.rateTable "20" = some 4 ∧ Table.enc State.reset.cfg.filterTable "sinc5" = none ∧
    Table.enc State.reset.cfg.chopTable "off" = none ∧ Table.enc State.reset.cfg.chopTable "normal" = some 0 ∧
    Table.enc State.reset.cfg.convTable "single" = none ∧ Table.enc State.reset.cfg.convTable "pulse" = some 1 ∧
    Table.enc State.reset.cfg.delayTable "1us" = none := by decide

/-- E9, and the same at the setter with the omitted negative pin unknown: no event. -/
theorem test_omitted_pin_unknown :
    answered (execOp (.encInpmux "AIN3" none) { State.reset with cfg := narrow }) =
      some (.err (.unknownIdentifier (.name "AINCOM"))) ∧
    after State.history (execOp (.setInpmux "AIN3" none) { State.reset with cfg := narrow }) = some [] := by decide

theorem witness_FieldOperationsAnswerByTheirFunctions :
    encInpmux "AIN3" (some "AIN4") State.reset = (.ok 0x45, State.reset) ∧
    encPga false 8 State.reset = (.ok 0x03, State.reset) ∧
    encMode0 "1200" "sinc3" State.reset = (.ok 0x4A, State.reset) ∧
    encMode1 "ac2wire" "continuous" "328us" State.reset = (.ok 0x47, State.reset) ∧
    encRef true "INT_P" "INT_N" State.reset = (.ok 0x10, State.reset) := ⟨rfl, rfl, rfl, rfl, rfl⟩

theorem witness_SettersAreEncodeThenWriteRegister :
    encInpmux "AIN3" (some "AIN4") State.reset = (.ok 0x45, State.reset) ∧
    encPga false 1 State.reset = (.ok 0x00, State.reset) ∧
    encRef false "AVDD" "AVSS" State.reset = (.ok 0x05, State.reset) ∧
    encMode0 "20" "fir" State.reset = (.ok 0x24, State.reset) ∧
    encMode1 "normal" "continuous" "0us" State.reset = (.ok 0x00, State.reset) := ⟨rfl, rfl, rfl, rfl, rfl⟩

/-- A fault state that reads, with one and with three dummy bytes, and one whose exchange fails. -/
theorem witness_GettersAreReadThenDecode :
    (at_ .fault 3 [value 0x07] []).acq.resting = true ∧ 1 ≤ (at_ .fault 3 [value 0x07] []).cfg.nDummy ∧
    (at_ .fault 3 [value 0x07] []).answer (2 + 1) = some [0xFF, 0x21, 0x07] ∧
    ([0xFF, 0x21, 0x07] : List Byte)[2]? = some 0x07 ∧ (at_ .fault 3 [.fails] []).answer (2 + 1) = none ∧
    { other with replies := [.bytes [0xFF, 0x21, 0x07, 0, 0]] }.answer (2 + other.cfg.nDummy) =
      some [0xFF, 0x21, 0x07, 0, 0] := by decide

theorem witness_ReadRegisterReturnsByteTwo :
    (withReplies [value 0x07]).acq.resting = true ∧ 1 ≤ (withReplies [value 0x07]).cfg.nDummy ∧
    (withReplies [value 0x07]).answer (2 + 1) = some [0xFF, 0x21, 0x07] ∧
    ([0xFF, 0x21, 0x07] : List Byte)[2]? = some 0x07 ∧ (withReplies [.fails]).answer (2 + 1) = none ∧
    RegId.ofName "FOO" = none := by decide

theorem witness_RregReadsTheRegisterAtItsAddress :
    State.reset.cfg.regMap.regAt 0x11 = some .inpmux ∧ State.reset.cfg.regMap.regAt 0x0F = none ∧
    (withReplies [value 0x45]).answer (2 + 1) = some [0xFF, 0x21, 0x45] ∧
    (at_ .armed 3 [] []).acq.resting = false := by decide

/-- A match, a mismatch, the first and the second exchange failing. -/
theorem witness_WriteRegisterVerifiesItsWrite :
    RegId.ofName "FOO" = none ∧ State.reset.acq.resting = true ∧ (withReplies [.fails]).answer 5 = none ∧
    (withReplies [.bytes [0, 0, 0, 0, 0], .fails]).answer 5 = some [0, 0, 0, 0, 0] ∧
    ((withReplies [.bytes [0, 0, 0, 0, 0], .fails]).afterXchg (frameWR Config.default 0x10 0x07)).answer (2 + 1) = none ∧
    ((withReplies [.bytes [0, 0, 0, 0, 0], value 0x07]).afterXchg (frameWR Config.default 0x10 0x07)).answer (2 + 1) =
      some [0xFF, 0x21, 0x07] ∧ ([0xFF, 0x21, 0x07] : List Byte)[2]? = some 0x07 ∧ (0x06 : Byte) ≠ 0x07 := by decide

/-- A match, a mismatch, the first and the second exchange failing. -/
theorem witness_WregWritesAndVerifies :
    (at_ .dataAvailable 3 [] []).acq.resting = false ∧ State.reset.cfg.regMap.regAt 0x12 = none ∧
    State.reset.cfg.regMap.regAt 0x10 = some .pga ∧ State.reset.cfg.regMap.regAt 0x01 = some .status ∧
    (withReplies [.fails]).answer 5 = none ∧
    (withReplies [.bytes [0, 0, 0, 0, 0], value 0x07]).answer 5 = some [0, 0, 0, 0, 0] ∧
    ((withReplies [.bytes [0, 0, 0, 0, 0], .fails]).afterXchg (frameWR Config.default 0x10 0x07)).answer (2 + 1) =
      none ∧
    ((withReplies [.bytes [0, 0, 0, 0, 0], value 0x07]).afterXchg (frameWR Config.default 0x10 0x07)).answer (2 + 1) =
      some [0xFF, 0x21, 0x07] := by decide

theorem witness_ShadowsAreReadThroughTheirValidBits :
    ({ Shadows.empty with mode3 := some 0x60 } : Shadows).mode3 = some 0x60 ∧ State.reset.sh.mode3 = none := by decide

/-- An operation that writes PGA, one that writes nothing, one that moves `ACQ`. -/
theorem witness_HostOperationsFrame :
    (after State.acq (execOp .arm (withReplies [.bytes [0, 0, 0]]))).isSome = true ∧
    (after State.sh (execOp (.setPga false 1) (withReplies [.bytes [0, 0, 0, 0, 0], value 0x00]))).isSome = true ∧
    (HostOp.setPga false 1).writes ≠ some .ref ∧ (HostOp.setPga false 1).waits = false ∧
    (HostOp.setPga false 1).successors .fault = [.fault] ∧ HostOp.stop ≠ .resetPulse := by decide

theorem witness_WireCommandsFrame :
    (after State.sh (exec (.wreg 0x10 0x00) (withReplies [.bytes [0, 0, 0, 0, 0], value 0x00]))).isSome = true ∧
    (after State.sh (exec .stop (withReplies [.bytes [0, 0, 0]]))).isSome = true ∧
    State.reset.cfg.regMap.regAt 0x10 ≠ some .ref ∧ Instr.stop ≠ .start ∧ Instr.stop ≠ .rdata := by decide

/-- The largest reference, the shortest array, and both answers of `accepts`. -/
theorem witness_OperationsRespondExactlyWhereAccepted :
    (HostOp.finish none 0 65535 1).inType Config.default = true ∧ 2 ^ State.reset.cfg.refW ≤ 65536 ∧
    (HostOp.parseRdata [0, 0, 0, 0, 0] false false).inType Config.default = true ∧
    HostOp.waitPolled.inType Config.default = true ∧ HostOp.waitPolled.accepts .armed false = true ∧
    HostOp.waitPolled.accepts .idle true = false ∧ HostOp.readData.accepts .waitingForData true = true ∧
    HostOp.readData.accepts .waitingForData false = false := by decide

theorem witness_PureOperationsChangeOnlyTheResponse :
    (HostOp.decPga 0x00).pure = true ∧ (after State.acq (execOp (.decPga 0x00) State.reset)).isSome = true := by decide

/-- Each of the five errors ends some operation. -/
theorem witness_ErrorsChangeOnlyWhatTheTableSays :
    answered (execOp (.buildRreg "FOO") State.reset) = some (.err (.unknownIdentifier (.name "FOO"))) ∧
    answered (execOp (.setPga false 1) (withReplies [.bytes [0, 0, 0, 0, 0], value 0x01])) =
      some (.err (.verificationFailed .pga 0x00 0x01)) ∧
    answered (execOp (.finish none 0x7FFFFF 1 1) { other with acq := .dataAvailable }) = some (.err .pgaAlarm) ∧
    answered (execOp .waitSignal { other with acq := .armed }) = some (.err .timeout) ∧
    answered (execOp .stop (withReplies [.fails])) = some (.err .transportFailure) := by decide

theorem witness_FailedExchangeEndsItsOperation :
    after (newEvents (withReplies [.fails])) (execOp .stop (withReplies [.fails])) =
      some ([] ++ .xchg [0x0A, 0x10, 0x00] none :: []) ∧
    answered (execOp .stop (withReplies [.fails])) = some (.err .transportFailure) := by decide

/-- Byte 0 at 127 and at 128, the largest reference. -/
theorem witness_ConverterReturnsTheExactQuotient :
    65535 < 2 ^ State.reset.cfg.refW ∧ 8388607 = (127 : Nat) * 65536 + 255 * 256 + 255 ∧
    (8388607 : Int) = (if 127 > 127 then -(2 ^ 24 - 8388607) else 8388607) ∧
    (-8388608 : Int) = (if 128 > 127 then -(2 ^ 24 - 8388608) else 8388608) ∧
    128 ∈ [1, 2, 4, 8, 16, 32, 64, 128] ∧ 0 ∉ [1, 2, 4, 8, 16, 32, 64, 128] := by decide

theorem witness_ConverterIsStrictlyIncreasing :
    1 ∈ [1, 2, 4, 8, 16, 32, 64, 128] ∧ 0 < 1 ∧ 0 < (0x7FFFFF : Sample).toNat ∧
    (0x7FFFFF : Sample).toNat ≤ 0x7FFFFF ∧ 0x800000 ≤ (0x800000 : Sample).toNat ∧
    s24 0xFFFFFF < s24 0x000000 := by decide

theorem witness_ConverterFullScaleIsTwoToTheTwentyThree : 128 ∈ [1, 2, 4, 8, 16, 32, 64, 128] := by decide

theorem witness_ConverterResultsAreDyadic : 65535 < 2 ^ 16 ∧ 128 ∈ [1, 2, 4, 8, 16, 32, 64, 128] := by decide

theorem witness_StartArms :
    State.reset.cfg.legal = true ∧ (at_ .fault 3 [] []).cfg.legal = true ∧ State.reset.acq = .idle ∧ (at_ .fault 3 [] []).acq = .fault ∧
    (withReplies [.bytes [0, 0, 0]]).answer 3 = some [0, 0, 0] ∧ (withReplies [.fails]).answer 3 = none ∧
    (at_ .armed 3 [] []).acq ≠ .idle ∧ (at_ .armed 3 [] []).acq ≠ .fault := by decide

theorem witness_EnterWaitStartsTheCount :
    (at_ .armed 3 [] []).acq = .armed ∧ State.reset.acq ≠ .armed := by decide

/-- Ready at once and on the last poll of the budget; the whole budget used; the last poll failing; no budget. -/
theorem witness_WaitPolledOutcomes :
    (at_ .armed 1 [value 0x04] []).acq = .armed ∧ 1 ≤ (at_ .armed 1 [value 0x04] []).cfg.nDummy ∧
    (at_ .armed 1 [value 0x04] []).replies = ([] : List (List Byte)).map .bytes ++ .bytes [0xFF, 0x21, 0x04] :: [] ∧
    ([0xFF, 0x21, 0x04] : List Byte)[2]? = some 0x04 ∧ (0x04 : Byte).getLsbD 2 = true ∧
    (at_ .armed 1 [value 0xFB] []).replies = [[0xFF, 0x21, 0xFB]].map .bytes ++ [] ∧
    (0xFB : Byte).getLsbD 2 = false ∧ [[0xFF, 0x21, (0xFB : Byte)]].length = (at_ .armed 1 [] []).cfg.retryBudget ∧
    (at_ .armed 1 [.fails] []).replies = ([] : List (List Byte)).map .bytes ++ .fails :: [] ∧
    (at_ .armed 0 [] []).cfg.retryBudget = 0 := by decide

theorem witness_WaitSignalOutcomes :
    (at_ .armed 3 [] [true, true, false]).acq = .armed ∧
    (at_ .armed 3 [] [true, true, false]).samples = List.replicate 2 true ++ false :: [] ∧
    2 < (at_ .armed 3 [] []).cfg.retryBudget ∧
    (at_ .armed 3 [] [true, true, true]).samples = List.replicate 3 true ++ [] ∧
    (at_ .armed 0 [] []).samples = List.replicate (at_ .armed 0 [] []).cfg.retryBudget true ++ [] := by decide

theorem witness_RdataReadsTheSample :
    (waited true []).cfg.legal = true ∧ (waited true []).acq = .waitingForData ∧ (waited true []).waitDone = true ∧
    (waited true [.bytes [0, 0, 0, 0, 0, 0, 0, 0, 0]]).answer 9 = some [0, 0, 0, 0, 0, 0, 0, 0, 0] ∧
    (waited true [.fails]).answer 9 = none ∧ State.reset.acq ≠ .waitingForData ∧ (waited false []).waitDone = false := by decide

theorem witness_AlarmPredicate : Config.default.legal = true := by decide

theorem witness_FinishOutcomes :
    65535 < 2 ^ State.reset.cfg.refW ∧ (at_ .dataAvailable 3 [] []).acq = .dataAvailable ∧
    alarm Config.default (some 0x10) 0 = true ∧ alarm Config.default none 0x7FFFFF = false ∧
    128 ∈ [1, 2, 4, 8, 16, 32, 64, 128] ∧ 127 ∉ [1, 2, 4, 8, 16, 32, 64, 128] ∧
    State.reset.acq ≠ .dataAvailable := by decide

/-- Ready on the last poll of the budget, with a good sample and with a saturated one. -/
theorem witness_CollectPolledRun :
    (at_ .fault 2 [] []).acq.resting = true ∧ (at_ .fault 2 [] []).cfg.legal = true ∧
    2500 < 2 ^ (at_ .fault 2 [] []).cfg.refW ∧ 128 ∈ [1, 2, 4, 8, 16, 32, 64, 128] ∧
    (at_ .fault 2 [.bytes [0, 0, 0], value 0x00, value 0x04, .bytes [0xFF, 0x12, 0x12, 0x34, 0x56, 0, 0, 0, 0]] []).replies =
      .bytes [0, 0, 0] :: ([[0xFF, 0x21, 0x00]].map .bytes ++ .bytes [0xFF, 0x21, 0x04] ::
        .bytes [0xFF, 0x12, 0x12, 0x34, 0x56, 0, 0, 0, 0] :: []) ∧
    (0x00 : Byte).getLsbD 2 = false ∧ (0x04 : Byte).getLsbD 2 = true ∧ 1 < (at_ .fault 2 [] []).cfg.retryBudget ∧
    (none, 0x123456) = parseRdata Config.default [0xFF, 0x12, 0x12, 0x34, 0x56, 0, 0, 0, 0]
      (at_ .fault 2 [] []).layout.1 (at_ .fault 2 [] []).layout.2 ∧
    alarm Config.default none 0x123456 = false ∧
    alarm { Config.default with satCheckWithoutStatus := true } none 0x7FFFFF = true := by decide

theorem witness_CollectSignalRun :
    (at_ .idle 3 [.bytes [0, 0, 0], .bytes [0xFF, 0x12, 0x12, 0x34, 0x56, 0, 0, 0, 0]] [true, true, false]).replies =
      .bytes [0, 0, 0] :: .bytes [0xFF, 0x12, 0x12, 0x34, 0x56, 0, 0, 0, 0] :: [] ∧
    (at_ .idle 3 [] [true, true, false]).samples = List.replicate 2 true ++ false :: [] ∧
    2 < (at_ .idle 3 [] []).cfg.retryBudget ∧ (at_ .idle 3 [] []).acq.resting = true ∧
    (at_ .idle 3 [] []).cfg.legal = true ∧ 2500 < 2 ^ (at_ .idle 3 [] []).cfg.refW ∧
    (none, 0x123456) = parseRdata Config.default [0xFF, 0x12, 0x12, 0x34, 0x56, 0, 0, 0, 0]
      (at_ .idle 3 [] []).layout.1 (at_ .idle 3 [] []).layout.2 := by decide

theorem witness_NeverReadyEndsInTimeout :
    (at_ .idle 2 [.bytes [0, 0, 0], value 0xFB, value 0x00] []).replies =
      .bytes [0, 0, 0] :: ([[0xFF, 0x21, 0xFB], [0xFF, 0x21, 0x00]].map .bytes ++ []) ∧
    (at_ .idle 2 [] []).acq.resting = true ∧ (at_ .idle 2 [] []).cfg.legal = true ∧
    (at_ .idle 2 [] []).cfg.retryBudget = [[0xFF, 0x21, (0xFB : Byte)], [0xFF, 0x21, 0x00]].length ∧
    (0xFB : Byte).getLsbD 2 = false ∧ (0x00 : Byte).getLsbD 2 = false ∧
    (at_ .idle 2 [] [true, true]).samples = List.replicate (at_ .idle 2 [] []).cfg.retryBudget true ++ [] ∧
    (at_ .idle 0 [] []).samples = List.replicate (at_ .idle 0 [] []).cfg.retryBudget true ++ [] := by decide

/-- The state of P3 step 2, in both modes. -/
theorem witness_SaturatedSampleEndsInPgaAlarm :
    (at_ .idle 1 [] []).cfg.legal = true ∧ (at_ .idle 1 [] []).acq.resting = true ∧
    { State.reset with sh := { Shadows.empty with mode3 := some 0x40 } }.layout = (true, false) ∧
    (at_ .idle 2 [.bytes [0, 0, 0], value 0xFB, value 0x04, .bytes [0xFF, 0x12, 0x04, 0x7F, 0xFF, 0xFF, 0, 0, 0]]
      []).replies = .bytes [0, 0, 0] :: ([[0xFF, 0x21, 0xFB]].map .bytes ++ .bytes [0xFF, 0x21, 0x04] ::
        .bytes [0xFF, 0x12, 0x04, 0x7F, 0xFF, 0xFF, 0, 0, 0] :: []) ∧
    (0xFB : Byte).getLsbD 2 = false ∧ (0x04 : Byte).getLsbD 2 = true ∧ 1 < (at_ .idle 2 [] []).cfg.retryBudget ∧
    (at_ .idle 1 [.bytes [0, 0, 0], .bytes [0xFF, 0x12, 0x04, 0x7F, 0xFF, 0xFF, 0, 0, 0]] [false]).replies =
      .bytes [0, 0, 0] :: .bytes [0xFF, 0x12, 0x04, 0x7F, 0xFF, 0xFF, 0, 0, 0] :: [] ∧
    (at_ .idle 1 [] [false]).samples = List.replicate 0 true ++ false :: [] ∧
    0 < (at_ .idle 1 [] []).cfg.retryBudget := by decide

/-- P3 step 2 in the other mode. -/
theorem test_collect_alarm_polled :
    after (fun t => (t.response, t.acq, t.polls)) (execOp (.collectMeasurement "Polled" 2500 128)
      { at_ .idle 1000 [.bytes [0, 0, 0], value 0xFB, value 0x04, .bytes [0xFF, 0x12, 0x04, 0x7F, 0xFF, 0xFF, 0, 0, 0]]
          [] with sh := { Shadows.empty with mode3 := some 0x40 } }) =
      some (some (.err .pgaAlarm), .fault, 2) := by decide

/-- A mode that is neither, a bad gain, and a run past both checks. -/
theorem witness_CollectEndsInIdleOrFault :
    (after State.acq (execOp (.collectMeasurement "Pulsed" 5000 1) State.reset)).isSome = true ∧
    "Pulsed" ≠ "Polled" ∧ "Pulsed" ≠ "SignalDriven" ∧
    (after State.acq (execOp (.collectMeasurement "Polled" 5000 3) State.reset)).isSome = true ∧
    3 ∉ [1, 2, 4, 8, 16, 32, 64, 128] ∧
    (after State.acq (execOp (.collectMeasurement "SignalDriven" 5000 1) (withReplies [.fails]))).isSome = true ∧
    1 ∈ [1, 2, 4, 8, 16, 32, 64, 128] := by decide

theorem witness_StopSendsItsFrame :
    State.reset.cfg.legal = true ∧ State.reset.acq = .idle ∧ (withReplies [.bytes [0, 0, 0]]).answer 3 = some [0, 0, 0] ∧
    (withReplies [.fails]).answer 3 = none ∧ (at_ .waitingForData 3 [] []).acq ≠ .idle ∧
    (at_ .waitingForData 3 [] []).acq ≠ .fault := by decide

theorem witness_CalibrationsSendTheirFrames :
    (at_ .fault 3 [] []).cfg.legal = true ∧
    (at_ .fault 3 [.bytes [0, 0]] []).acq = .fault ∧ (at_ .fault 3 [.bytes [0, 0]] []).answer 2 = some [0, 0] ∧
    (at_ .fault 3 [.fails] []).answer 2 = none ∧ (at_ .dataAvailable 3 [] []).acq ≠ .idle ∧
    (at_ .dataAvailable 3 [] []).acq ≠ .fault := by decide

theorem witness_ResetPulseIdlesTheSequencer :
    (at_ .fault 3 [] []).acq = .fault ∧ (at_ .armed 3 [] []).acq ≠ .idle ∧ (at_ .armed 3 [] []).acq ≠ .fault := by
  decide

theorem witness_BlockResetLeavesTheTable :
    { other with acq := .armed, inbox := [.blockReset] }.cfg.legal = true ∧
    { other with acq := .armed, inbox := [.blockReset] }.inbox = .blockReset :: [] := by decide

theorem witness_ResetDuringAnOperationAbandonsIt :
    State.reset.cfg.legal = true ∧
    { State.reset with inbox := [.blockResetDuring .resetPulse 2] }.inbox = .blockResetDuring .resetPulse 2 :: [] ∧
    (after State.acq (execOp .resetPulse State.reset)).isSome = true ∧
    { State.reset with inbox := [.blockResetDuring .readData 1] }.inbox = .blockResetDuring .readData 1 :: [] ∧
    refusal (execOp .readData State.reset) = some .notAccepted := by decide

/-- U24: the reset during an operation the block has no step for. -/
theorem test_reset_during_refused :
    after (fun t => (t.acq, t.history)) (step { at_ .armed 3 [] [] with inbox := [.blockResetDuring .arm 1] }) =
      some (.idle, []) := by decide

theorem witness_StepKeepsTheInvariant :
    State.reset.inv ∧ other.inv ∧
    (after State.acq (step { State.reset with inbox := [.op .resetPulse] })).isSome = true := by decide

theorem witness_ParametersStayAndHistoryGrows :
    (after State.history (step { State.reset with inbox := [.op .resetPulse] })).isSome = true := by decide

/-- A frame byte for byte, bytes in no class, and a command's byte 0 with another byte 1. -/
theorem witness_StepRunsTheDecodedCommand :
    State.reset.cfg.legal = true ∧ (State.reset.withFetchWord 8 0x08).inbox = .frame [0x08, 0x10, 0x00] :: [] ∧
    decode Config.default [0x08, 0x10, 0x00] = some .start ∧ encode Config.default .start = [0x08, 0x10, 0x00] ∧
    decode Config.default [0x60] = none ∧ decode Config.default [0x08, 0x55, 0x00] = some .start ∧
    encode Config.default .start ≠ [0x08, 0x55, 0x00] := by decide

theorem witness_StepServesTheHost :
    { State.reset with cfg := { Config.default with nDummy := 0 } }.cfg.legal = false ∧
    State.reset.cfg.legal = true ∧ State.reset.inbox = [] ∧
    { State.reset with inbox := [.op .arm] }.inbox = .op .arm :: [] := by decide

theorem witness_AcqMovesOnlyAsTheTableSays :
    { State.reset with inbox := [.op .resetPulse] }.inbox = .op .resetPulse :: [] ∧
    (after State.acq (step { State.reset with inbox := [.op .resetPulse] })).isSome = true := by decide

theorem witness_OnlyEmittedCommandsAreTransmitted :
    after (newEvents State.reset)
      (step { withReplies [.bytes [0, 0, 0]] with inbox := [.frame [0x0A, 0x10, 0x00]] }) =
      some [.xchg [0x0A, 0x10, 0x00] (some [0, 0, 0])] := by decide

theorem witness_EveryWriteIsFollowedByItsVerifyRead :
    after (newEvents State.reset)
      (execOp (.writeRegister "PGA" 0x07) (withReplies [.bytes [0, 0, 0, 0, 0], value 0x07])) =
      some ([] ++ .xchg (frameWR Config.default 0x10 0x07) (some [0, 0, 0, 0, 0]) ::
        [.xchg [0x30, 0x10, 0x00] (some [0xFF, 0x21, 0x07])]) ∧ State.reset.cfg.legal = true := by decide

/-- A write that changes the shadow of PGA, and a reset that empties it. -/
theorem witness_ShadowsChangeOnlyByAVerifiedWrite :
    after (fun t => t.sh.get .pga) (step { withReplies [.bytes [0, 0, 0, 0, 0], value 0x07] with
      inbox := [.op (.writeRegister "PGA" 0x07)] }) = some (some 0x07) ∧ State.reset.sh.get .pga = none ∧
    after (fun t => t.sh.get .pga) (step { State.reset with
      sh := { Shadows.empty with pga := some 0x01 }, inbox := [.blockReset] }) = some none := by decide

end Sys2Proof.Tests
end

section
/-!
SUPPORT. The scope of a step (00_scope.md): a pure operation changes the response and nothing else (R4, R15); no step
changes a parameter, and the history only grows (R19, R59).
-/

namespace Sys2Proof.Machine

/-! ### The pure operations -/

/-- A look-up answers from the state it began in. -/
theorem LookRun.eq_responding {s t : State} (h : LookRun s t) : ∃ r, t = s.responding r := by
  cases h with
  | ok v => exact ⟨_, rfl⟩
  | unknown u => exact ⟨_, rfl⟩

/-- Of all the shapes of an operation only the look-up is a pure operation's. -/
theorem OpRun.lookRun_of_pure {o : HostOp} {s t : State} (ho : o.pure = true) (h : OpRun s o t) : LookRun s t := by
  cases h with
  | pure _ _ _ h => exact h
  | read _ _ hn | write _ _ hn | control _ _ hn => exact absurd ho (by simp [hn])
  | arm | enterWait | waitPolled | waitSignal | readData | finish | collect | resetPulse => cases ho

/-- Settles O25: a pure operation is a look-up (`execOp_runs`), which answers from the state it began in. -/
theorem pureOperationsChangeOnlyTheResponse : Obligations.PureOperationsChangeOnlyTheResponse := by
  intro o s t ho e
  obtain ⟨r, rfl⟩ := ((execOp_runs e).lookRun_of_pure ho).eq_responding
  rfl

/-! ### Parameters and history -/

/-- `t` has the parameters of `s`, and its history continues that of `s` (R19, R59). -/
structure Grows (s t : State) : Prop where
  cfg : t.cfg = s.cfg
  history : s.history <+: t.history

namespace Grows

variable {s t u : State}

theorem refl (s : State) : Grows s s := ⟨rfl, List.prefix_rfl⟩

theorem trans (h : Grows s t) (h' : Grows t u) : Grows s u := ⟨h'.cfg.trans h.cfg, h.history.trans h'.history⟩

theorem setAcq (h : Grows s t) (a : Acq) : Grows s (t.setAcq a) := h.trans ⟨rfl, List.prefix_rfl⟩

theorem setShadow (h : Grows s t) (r : RegId) (v : Byte) : Grows s (t.setShadow r v) :=
  h.trans ⟨rfl, List.prefix_rfl⟩

theorem responding (h : Grows s t) (r : Response) : Grows s (t.responding r) := h.trans ⟨rfl, List.prefix_rfl⟩

theorem afterXchg (h : Grows s t) (tx : List Byte) : Grows s (t.afterXchg tx) :=
  h.trans ⟨rfl, List.prefix_append _ _⟩

theorem delay (h : Grows s t) (d : Duration) : Grows s (t.delay d) := h.trans ⟨rfl, List.prefix_append _ _⟩

theorem blockReset (h : Grows s t) : Grows s t.blockReset := h.trans ⟨rfl, List.prefix_rfl⟩

end Grows

theorem grows_taking (s : State) (rest : List Request) : Grows s (s.taking rest) := ⟨rfl, List.prefix_rfl⟩

theorem grows_enterWait (s : State) : Grows s (enterWait s) := ⟨rfl, List.prefix_rfl⟩

theorem grows_resetPulse (s : State) : Grows s (resetPulse s) := by
  rw [resetPulse_eq]
  exact ⟨rfl, List.prefix_append _ _⟩

/-- Cut off after some of its events, an operation keeps the history before it (U24). -/
theorem grows_abandon (s t : State) (n : Nat) : Grows s (s.abandon t n) := ⟨rfl, List.prefix_append _ _⟩

/-- Responding with a result leaves the history as the result's state has it. -/
theorem Grows.of_respond {s t : State} {r : Res Value} (h : Grows s r.2) (e : respond r = .next t) : Grows s t := by
  cases e
  exact h.responding _

theorem Sequenced.grows {α : Type} {s : State} {r : Res α} (h : Sequenced s r) : Grows s r.2 := by
  obtain ⟨es, he, -⟩ := h.events
  exact ⟨h.regs.cfg, es, he.symm⟩

theorem LookRun.grows {s t : State} (h : LookRun s t) : Grows s t := by
  obtain ⟨r, rfl⟩ := h.eq_responding
  exact (Grows.refl s).responding r

theorem ReadRun.grows {s t : State} (h : ReadRun s t) : Grows s t := by
  cases h with
  | unknown => exact (Grows.refl s).responding _
  | fails => exact ((Grows.refl s).afterXchg _).responding _
  | reads _ _ _ _ hu => exact ((Grows.refl s).afterXchg _).trans hu.grows

theorem WriteRun.grows {w : Option RegId} {s t : State} (h : WriteRun w s t) : Grows s t := by
  have one (tx : List Byte) : Grows s (s.afterXchg tx) := (Grows.refl s).afterXchg tx
  cases h with
  | unknown => exact (Grows.refl s).responding _
  | writeFails => exact (one _).responding _
  | verified => exact (((one _).afterXchg _).setShadow _ _).responding _
  | readFails | status | mismatch => exact ((one _).afterXchg _).responding _

theorem ControlRun.grows {s t : State} (h : ControlRun s t) : Grows s t := by
  have one (tx : List Byte) : Grows s (s.afterXchg tx) := (Grows.refl s).afterXchg tx
  cases h with
  | fails | stops => exact (one _).responding _
  | settles => exact ((one _).delay _).responding _

theorem grows_finish (status : Option Byte) (raw : Sample) (ref g : Nat) (s : State) :
    Grows s (finish status raw ref g s).2 := by
  rcases finish_cases status raw ref g s with ⟨-, e⟩ | ⟨-, -, e⟩ | ⟨-, -, e⟩ <;> rw [e]
  · exact (Grows.refl s).setAcq .fault
  · exact (Grows.refl s).setAcq .idle
  · exact Grows.refl s

theorem grows_collect (mode : Ident) (ref g : Nat) (s : State) : Grows s (collect mode ref g s).2 := by
  rcases collect_cases mode ref g s with ⟨-, e⟩ | ⟨m, -, ⟨-, e⟩ | ⟨hg, e⟩⟩ <;> rw [e]
  · exact Grows.refl s
  · exact Grows.refl s
  · exact (collectPhases_sequenced hg m ref s).grows

theorem OpRun.grows {o : HostOp} {s t : State} (h : OpRun s o t) : Grows s t := by
  cases h with
  | pure _ _ _ h => exact h.grows
  | read _ _ _ _ _ _ _ _ h => exact h.grows
  | write _ _ _ _ _ _ _ h => exact h.grows
  | control _ _ _ _ _ _ _ _ h => exact h.grows
  | arm _ e => exact ((arm_sequenced s).mapValue _).grows.of_respond e
  | enterWait => exact (grows_enterWait s).responding _
  | waitPolled _ e => exact ((waitPolled_sequenced s).mapValue _).grows.of_respond e
  | waitSignal _ e => exact ((waitSignal_sequenced s).mapValue _).grows.of_respond e
  | readData _ e => exact ((readData_sequenced s).mapValue _).grows.of_respond e
  | finish status raw ref g _ _ e => exact (grows_finish status raw ref g s).of_respond e
  | collect mode ref g _ e => exact (grows_collect mode ref g s).of_respond e
  | resetPulse => exact (grows_resetPulse s).responding _

theorem execOp_grows {o : HostOp} {s t : State} (e : execOp o s = .next t) : Grows s t := (execOp_runs e).grows

theorem ExecRun.grows {i : Instr} {s t : State} (h : ExecRun s t i) : Grows s t := by
  cases h with
  | reset h => exact h ▸ (Grows.refl s).responding _
  | start e | stop e | rdata e | syocal e | sfocal e => exact execOp_grows e
  | rreg _ h => exact h.grows
  | wreg _ _ h => exact h.grows

theorem StepRun.grows {s t : State} (h : StepRun s t) : Grows s t := by
  cases h with
  | waits => exact Grows.refl s
  | op _ rest _ _ e => exact (grows_taking s rest).trans (execOp_grows e)
  | frame _ _ rest _ _ _ e => exact (grows_taking s rest).trans (exec_runs e).grows
  | blockReset rest | resetBefore _ _ rest => exact (grows_taking s rest).blockReset
  | resetDuring _ n rest u => exact (grows_taking s rest).trans (grows_abandon _ u n)

/-- Settles O53: every shape of a step keeps the configuration and extends the history. -/
theorem parametersStayAndHistoryGrows : Obligations.ParametersStayAndHistoryGrows := by
  intro s t e
  obtain ⟨-, h⟩ := step_runs e
  exact ⟨h.grows.cfg, h.grows.history⟩

end Sys2Proof.Machine
end

section
/-!
SUPPORT. The state (R20, R23 to R29, R43, R267): what a host operation and a wire command leave unchanged; the
invariant at reset and over every step; the read ports and the encodings.
-/

namespace Sys2Proof.Machine

/-! ### Exchanges alone -/

/-- The parameters, the requests to come and the two lines that no operation drives are as in `s` (R19, R267). -/
structure Steady (s t : State) : Prop where
  cfg : t.cfg = s.cfg
  inbox : t.inbox = s.inbox
  pwdnHold : t.pwdnHold = s.pwdnHold
  startPin : t.startPin = s.startPin

/-- The count of polls, the record of a returned wait and the samples to come are as in `s`. -/
structure Unwaited (s t : State) : Prop where
  polls : t.polls = s.polls
  waitDone : t.waitDone = s.waitDone
  samples : t.samples = s.samples

/-- Beside the shadows and the response, `t` differs from `s` at most in the record of the exchanges it made. -/
structure OnlyExchanges (s t : State) : Prop extends Steady s t, Unwaited s t where
  acq : t.acq = s.acq
  resetN : t.resetN = s.resetN

theorem OnlyExchanges.sameRegs {s t : State} (h : OnlyExchanges s t) (hsh : t.sh = s.sh) : SameRegs s t :=
  ⟨hsh, h.resetN, h.pwdnHold, h.startPin, h.cfg, h.inbox⟩

theorem LookRun.onlyExchanges {s t : State} (h : LookRun s t) : OnlyExchanges s t := by
  obtain ⟨r, rfl⟩ := h.eq_responding
  exact ⟨⟨rfl, rfl, rfl, rfl⟩, ⟨rfl, rfl, rfl⟩, rfl, rfl⟩

theorem LookRun.sh {s t : State} (h : LookRun s t) : t.sh = s.sh := by
  obtain ⟨r, rfl⟩ := h.eq_responding
  rfl

theorem ReadRun.onlyExchanges {s t : State} (h : ReadRun s t) : OnlyExchanges s t := by
  cases h with
  | unknown | fails => exact ⟨⟨rfl, rfl, rfl, rfl⟩, ⟨rfl, rfl, rfl⟩, rfl, rfl⟩
  | reads _ _ _ _ hu =>
    obtain ⟨r, rfl⟩ := hu.eq_responding
    exact ⟨⟨rfl, rfl, rfl, rfl⟩, ⟨rfl, rfl, rfl⟩, rfl, rfl⟩

theorem ReadRun.sh {s t : State} (h : ReadRun s t) : t.sh = s.sh := by
  cases h with
  | unknown | fails => rfl
  | reads _ _ _ _ hu => exact hu.sh

theorem WriteRun.onlyExchanges {w : Option RegId} {s t : State} (h : WriteRun w s t) : OnlyExchanges s t := by
  cases h with
  | unknown | writeFails | readFails | verified | status | mismatch =>
    exact ⟨⟨rfl, rfl, rfl, rfl⟩, ⟨rfl, rfl, rfl⟩, rfl, rfl⟩

/-- Only a verified write changes a shadow, and only its own register's (R172). -/
theorem WriteRun.sh_get {w : Option RegId} {s t : State} (h : WriteRun w s t) {q : RegId} (hq : w ≠ some q) :
    t.sh.get q = s.sh.get q := by
  cases h with
  | verified r v _ _ hw => exact shadows_get_set_other s.sh r q v fun hqr => hq (hqr ▸ hw)
  | unknown | writeFails | readFails | status | mismatch => rfl

theorem ControlRun.onlyExchanges {s t : State} (h : ControlRun s t) : OnlyExchanges s t := by
  cases h with
  | fails | stops | settles => exact ⟨⟨rfl, rfl, rfl, rfl⟩, ⟨rfl, rfl, rfl⟩, rfl, rfl⟩

theorem ControlRun.sh {s t : State} (h : ControlRun s t) : t.sh = s.sh := by
  cases h with
  | fails | stops | settles => rfl

/-! ### Host operations -/

theorem SameRegs.of_respond {s t : State} {r : Res Value} (h : SameRegs s r.2) (e : respond r = .next t) :
    SameRegs s t := by
  cases e
  exact h.trans ⟨rfl, rfl, rfl, rfl, rfl, rfl⟩

theorem sameRegs_finish (status : Option Byte) (raw : Sample) (ref g : Nat) (s : State) :
    SameRegs s (finish status raw ref g s).2 := by
  rcases finish_cases status raw ref g s with ⟨-, e⟩ | ⟨-, -, e⟩ | ⟨-, -, e⟩ <;> rw [e] <;>
    exact ⟨rfl, rfl, rfl, rfl, rfl, rfl⟩

theorem sameRegs_collect (mode : Ident) (ref g : Nat) (s : State) : SameRegs s (collect mode ref g s).2 := by
  rcases collect_cases mode ref g s with ⟨-, e⟩ | ⟨m, -, ⟨-, e⟩ | ⟨hg, e⟩⟩ <;> rw [e]
  · exact SameRegs.refl s
  · exact SameRegs.refl s
  · exact (collectPhases_sequenced hg m ref s).regs

/-- An operation keeps every register but `ACQ` and `POLLS`, or is a write+verify cycle, or is RESET_PULSE. -/
theorem OpRun.sameRegs_or {o : HostOp} {s t : State} (h : OpRun s o t) :
    SameRegs s t ∨ WriteRun o.writes s t ∨ (o = .resetPulse ∧ t = (Machine.resetPulse s).responding (.ok .unit)) := by
  cases h with
  | pure _ _ _ h => exact .inl (h.onlyExchanges.sameRegs h.sh)
  | read _ _ _ _ _ _ _ _ h => exact .inl (h.onlyExchanges.sameRegs h.sh)
  | control _ _ _ _ _ _ _ _ h => exact .inl (h.onlyExchanges.sameRegs h.sh)
  | write _ _ _ _ _ _ _ h => exact .inr (.inl h)
  | arm _ e => exact .inl (((arm_sequenced s).mapValue _).regs.of_respond e)
  | enterWait => exact .inl ⟨rfl, rfl, rfl, rfl, rfl, rfl⟩
  | waitPolled _ e => exact .inl (((waitPolled_sequenced s).mapValue _).regs.of_respond e)
  | waitSignal _ e => exact .inl (((waitSignal_sequenced s).mapValue _).regs.of_respond e)
  | readData _ e => exact .inl (((readData_sequenced s).mapValue _).regs.of_respond e)
  | finish status raw ref g _ _ e => exact .inl ((sameRegs_finish status raw ref g s).of_respond e)
  | collect mode ref g _ e => exact .inl ((sameRegs_collect mode ref g s).of_respond e)
  | resetPulse => exact .inr (.inr ⟨rfl, rfl⟩)

theorem OpRun.steady {o : HostOp} {s t : State} (h : OpRun s o t) : Steady s t := by
  rcases h.sameRegs_or with h | h | ⟨-, rfl⟩
  · exact ⟨h.cfg, h.inbox, h.pwdnHold, h.startPin⟩
  · exact h.onlyExchanges.toSteady
  · exact ⟨rfl, rfl, rfl, rfl⟩

theorem OpRun.resetN {o : HostOp} {s t : State} (h : OpRun s o t) (ho : o ≠ .resetPulse) : t.resetN = s.resetN := by
  rcases h.sameRegs_or with h | h | ⟨rfl, -⟩
  · exact h.resetN
  · exact h.onlyExchanges.resetN
  · exact absurd rfl ho

theorem OpRun.sh_get {o : HostOp} {s t : State} (h : OpRun s o t) {q : RegId} (hq : o.writes ≠ some q) :
    t.sh.get q = s.sh.get q := by
  rcases h.sameRegs_or with h | h | ⟨-, rfl⟩
  · rw [h.sh]
  · exact h.sh_get hq
  · rfl

/-- Only the waits count polls, record a return or take samples (R20, R25). -/
theorem OpRun.unwaited {o : HostOp} {s t : State} (h : OpRun s o t) (ho : o.waits = false) : Unwaited s t := by
  cases h with
  | pure _ _ _ h => exact h.onlyExchanges.toUnwaited
  | read _ _ _ _ _ _ _ _ h => exact h.onlyExchanges.toUnwaited
  | write _ _ _ _ _ _ _ h => exact h.onlyExchanges.toUnwaited
  | control _ _ _ _ _ _ _ _ h => exact h.onlyExchanges.toUnwaited
  | enterWait | waitPolled | waitSignal | collect => cases ho
  | arm _ e => rcases arm_cases s with ⟨_, -, e'⟩ | ⟨-, e'⟩ <;> rw [e'] at e <;> cases e <;> exact ⟨rfl, rfl, rfl⟩
  | readData _ e =>
    rcases readData_cases s with ⟨_, -, -, e'⟩ | ⟨-, e'⟩ <;> rw [e'] at e <;> cases e <;> exact ⟨rfl, rfl, rfl⟩
  | finish status raw ref g _ _ e =>
    rcases finish_cases status raw ref g s with ⟨-, e'⟩ | ⟨-, -, e'⟩ | ⟨-, -, e'⟩ <;> rw [e'] at e <;> cases e <;>
      exact ⟨rfl, rfl, rfl⟩
  | resetPulse => exact ⟨rfl, rfl, rfl⟩

/-- `ACQ` stays where the table of R224 lists no move. -/
theorem OpRun.acq_eq {o : HostOp} {s t : State} (h : OpRun s o t) (ho : o.successors s.acq = [s.acq]) :
    t.acq = s.acq := by
  cases h with
  | pure _ _ _ h => exact h.onlyExchanges.acq
  | read _ _ _ _ _ _ _ _ h => exact h.onlyExchanges.acq
  | write _ _ _ _ _ _ _ h => exact h.onlyExchanges.acq
  | control _ _ _ _ _ _ _ _ h => exact h.onlyExchanges.acq
  | enterWait | resetPulse => exact List.singleton_inj.mp ho
  | arm | waitPolled | waitSignal | readData | finish | collect => simp [HostOp.successors] at ho

/-- Settles O22: the frame of each shape of a host operation. -/
theorem hostOperationsFrame : Obligations.HostOperationsFrame := by
  intro o s t e
  have h := execOp_runs e
  exact ⟨h.steady.cfg, h.steady.inbox, h.steady.pwdnHold, h.steady.startPin, h.resetN, fun _ => h.sh_get,
    fun hw => ⟨(h.unwaited hw).polls, (h.unwaited hw).waitDone⟩, h.acq_eq, h.grows.history⟩

/-! ### Wire commands -/

theorem ExecRun.steady {i : Instr} {s t : State} (h : ExecRun s t i) : Steady s t := by
  cases h with
  | reset h => exact h ▸ ⟨rfl, rfl, rfl, rfl⟩
  | start e | stop e | rdata e | syocal e | sfocal e => exact (execOp_runs e).steady
  | rreg _ h => exact h.onlyExchanges.toSteady
  | wreg _ _ h => exact h.onlyExchanges.toSteady

theorem ExecRun.resetN {i : Instr} {s t : State} (h : ExecRun s t i) : t.resetN = s.resetN := by
  cases h with
  | reset h => exact h ▸ rfl
  | start e | stop e | rdata e | syocal e | sfocal e => exact (execOp_runs e).resetN nofun
  | rreg _ h => exact h.onlyExchanges.resetN
  | wreg _ _ h => exact h.onlyExchanges.resetN

theorem ExecRun.unwaited {i : Instr} {s t : State} (h : ExecRun s t i) : Unwaited s t := by
  cases h with
  | reset h => exact h ▸ ⟨rfl, rfl, rfl⟩
  | start e | stop e | rdata e | syocal e | sfocal e => exact (execOp_runs e).unwaited rfl
  | rreg _ h => exact h.onlyExchanges.toUnwaited
  | wreg _ _ h => exact h.onlyExchanges.toUnwaited

theorem ExecRun.sh_get {i : Instr} {s t : State} (h : ExecRun s t i) {q : RegId}
    (hq : ∀ a v, i = .wreg a v → s.cfg.regMap.regAt a ≠ some q) : t.sh.get q = s.sh.get q := by
  cases h with
  | reset h => exact h ▸ rfl
  | start e | stop e | rdata e | syocal e | sfocal e => exact (execOp_runs e).sh_get nofun
  | rreg _ h => rw [h.sh]
  | wreg a v h => exact h.sh_get (hq a v rfl)

/-- Only START and RDATA move `ACQ` (R224). -/
theorem ExecRun.acq_eq {i : Instr} {s t : State} (h : ExecRun s t i) (hs : i ≠ .start) (hr : i ≠ .rdata) :
    t.acq = s.acq := by
  cases h with
  | reset h => exact h ▸ rfl
  | start => exact absurd rfl hs
  | rdata => exact absurd rfl hr
  | stop e | syocal e | sfocal e => exact (execOp_runs e).acq_eq rfl
  | rreg _ h => exact h.onlyExchanges.acq
  | wreg _ _ h => exact h.onlyExchanges.acq

/-- RESET is built and not sent (R85, R104; log entry 7). -/
theorem exec_reset_history {s t : State} (e : exec .reset s = .next t) : t.history = s.history := by
  cases e
  rfl

/-- Settles O23: the frame of each shape of a wire command. -/
theorem wireCommandsFrame : Obligations.WireCommandsFrame := by
  intro i s t e
  have h := exec_runs e
  exact ⟨h.steady.cfg, h.steady.inbox, h.resetN, h.steady.pwdnHold, h.steady.startPin, h.unwaited.polls,
    h.unwaited.waitDone, h.unwaited.samples, fun _ => h.sh_get, h.acq_eq, h.grows.history,
    fun hi => exec_reset_history (hi ▸ e)⟩

/-! ### The invariant -/

/-- RESET_PULSE ends with `RESET_n` at rest, and no other operation drives it (R222, R267). -/
theorem OpRun.resetN_rests {o : HostOp} {s t : State} (h : OpRun s o t) (hs : s.resetN = true) : t.resetN = true := by
  rcases h.sameRegs_or with h | h | ⟨-, rfl⟩
  · exact h.resetN.trans hs
  · exact h.onlyExchanges.resetN.trans hs
  · rfl

theorem polls_collect {s : State} (mode : Ident) (ref g : Nat) (hs : s.polls ≤ s.cfg.retryBudget) :
    (collect mode ref g s).2.polls ≤ s.cfg.retryBudget := by
  rcases collect_cases mode ref g s with ⟨-, e⟩ | ⟨m, -, ⟨-, e⟩ | ⟨hg, e⟩⟩ <;> rw [e]
  · exact hs
  · exact hs
  · exact (collectPhases_sequenced hg m ref s).polls hs

/-- A wait counts from 0 and stops at the budget; nothing else counts (R25, R212, R213). -/
theorem OpRun.polls_le {o : HostOp} {s t : State} (h : OpRun s o t) (hs : s.polls ≤ s.cfg.retryBudget) :
    t.polls ≤ s.cfg.retryBudget := by
  have hu (ho : o.waits = false) : t.polls ≤ s.cfg.retryBudget := (h.unwaited ho).polls.trans_le hs
  cases h with
  | pure _ _ _ h => exact h.onlyExchanges.polls.trans_le hs
  | read _ _ _ _ _ hp => exact hu hp
  | write _ _ _ _ hp => exact hu hp
  | control _ _ _ _ _ hp => exact hu hp
  | arm | readData | finish | resetPulse => exact hu rfl
  | enterWait => exact Nat.zero_le _
  | waitPolled _ e => cases e; exact ((waitPolled_sequenced s).mapValue _).polls hs
  | waitSignal _ e => cases e; exact ((waitSignal_sequenced s).mapValue _).polls hs
  | collect mode ref g _ e => cases e; exact polls_collect mode ref g hs

theorem OpRun.inv {o : HostOp} {s t : State} (h : OpRun s o t) (hs : s.inv) : t.inv := by
  obtain ⟨hc, hp, hr, hd, hst⟩ := hs
  have hcfg := h.steady.cfg
  exact ⟨hcfg ▸ hc, hcfg ▸ h.polls_le hp, h.resetN_rests hr, h.steady.pwdnHold.trans hd, h.steady.startPin.trans hst⟩

theorem ExecRun.inv {i : Instr} {s t : State} (h : ExecRun s t i) (hs : s.inv) : t.inv := by
  obtain ⟨hc, hp, hr, hd, hst⟩ := hs
  have hcfg := h.steady.cfg
  exact ⟨hcfg ▸ hc, hcfg ▸ h.unwaited.polls ▸ hp, h.resetN.trans hr, h.steady.pwdnHold.trans hd,
    h.steady.startPin.trans hst⟩

/-- The block's reset meets the invariant from any state of a legal configuration (R280). -/
theorem inv_blockReset {s : State} (h : s.cfg.legal = true) : s.blockReset.inv := ⟨h, Nat.zero_le _, rfl, rfl, rfl⟩

/-- So does a reset in the middle of an operation, wherever it cuts it (U24). -/
theorem inv_abandon {s : State} (h : s.cfg.legal = true) (t : State) (n : Nat) : (s.abandon t n).inv :=
  inv_blockReset h

theorem StepRun.inv {s t : State} (h : StepRun s t) (hs : s.inv) : t.inv := by
  cases h with
  | waits => exact hs
  | op _ _ _ _ e => exact (execOp_runs e).inv hs
  | frame _ _ _ _ _ _ e => exact (exec_runs e).inv hs
  | blockReset | resetBefore => exact inv_blockReset hs.1
  | resetDuring _ n _ u => exact inv_abandon hs.1 u n

/-- Settles O52: every shape of a step keeps the invariant; the two wait loops stop at the budget (`Sequenced.polls`). -/
theorem stepKeepsTheInvariant : Obligations.StepKeepsTheInvariant :=
  fun _ _ hs e => (step_runs e).2.inv hs

/-! ### The state after reset -/

theorem default_legal : Config.default.legal = true := by decide

/-- Settles O48: the table of R43 is read off the reset state; no shadow of `Shadows.empty` holds a value. -/
theorem resetLeavesTheTable : Obligations.ResetLeavesTheTable := ⟨shadows_get_empty, rfl, rfl, rfl, rfl, rfl⟩

/-- Settles O51: the default configuration is legal, and the block has counted nothing. -/
theorem invariantHoldsAtReset : Obligations.InvariantHoldsAtReset :=
  ⟨default_legal, Nat.zero_le _, rfl, rfl, rfl⟩

/-! ### Read ports and encodings -/

/-- While `SH[MODE3]` holds a value, the layout is that value's bits 6 and 5 (R29). -/
theorem layout_of_mode3 {s : State} {v : Byte} (h : s.sh.mode3 = some v) :
    s.layout = (v.getLsbD 6, v.getLsbD 5) := by
  simp [State.layout, mode3Flags, h]

/-- While `SH[MODE3]` holds none, the layout is the power-on one (R29). -/
theorem layout_of_no_mode3 {s : State} (h : s.sh.mode3 = none) :
    s.layout = (s.cfg.mode3PowerOn.getLsbD 6, s.cfg.mode3PowerOn.getLsbD 5) := by
  simp [State.layout, mode3Flags, h]

/-- Settles O21: DEVICE_CONFIG responds with the shadows themselves; the layout by its two cases. -/
theorem shadowsAreReadThroughTheirValidBits : Obligations.ShadowsAreReadThroughTheirValidBits :=
  fun _ => ⟨rfl, fun _ => layout_of_mode3, layout_of_no_mode3⟩

/-- Settles O28: the codes are the tables of R24 and R251 as `Acq.code` and `Response.code` list them. -/
theorem codesOfAcqAndResponses : Obligations.CodesOfAcqAndResponses :=
  ⟨rfl, rfl, rfl, rfl, rfl, fun _ => rfl, fun _ => rfl, fun _ _ _ => rfl, rfl, rfl, rfl⟩

end Sys2Proof.Machine
end

section
/-!
SUPPORT. The registers as memory (42_register_access.md): the wire commands RREG and WREG outcome by outcome (R52, R53,
R170, R172), and the verify read that follows every answered write (R60).
-/

namespace Sys2Proof.Machine

section
variable {r : RegId} {v : Byte} {s : State}

/-! ### Register transactions, outcome by outcome -/

theorem readRegister_of_fails (h : s.answer (2 + s.cfg.nDummy) = none) :
    readRegister r s = (.error .transportFailure, s.afterXchg (frameRR s.cfg (s.cfg.regMap.addr r))) :=
  memRead_none h

theorem readRegister_of_reply {rx : List Byte} (h : s.answer (2 + s.cfg.nDummy) = some rx) (hv : rx[2]? = some v) :
    readRegister r s = (.ok v, s.afterXchg (frameRR s.cfg (s.cfg.regMap.addr r))) :=
  replyByte_eq hv ▸ memRead_some h

/-- A failed WREG exchange ends the cycle: there is no verify read (R172). -/
theorem writeRegister_of_write_fails (h : s.answer 5 = none) :
    writeRegister r v s = (.error .transportFailure, s.afterXchg (frameWR s.cfg (s.cfg.regMap.addr r) v)) := by
  simp [writeRegister, memWrite_none h]

/-- After an answered WREG exchange the cycle is the verify read and the comparison (R172). -/
theorem writeRegister_of_write_answered {rx : List Byte} (h : s.answer 5 = some rx) :
    writeRegister r v s = (readRegister r (s.afterXchg (frameWR s.cfg (s.cfg.regMap.addr r) v))).andThen
      fun got s => verify r v got s := by
  simp [writeRegister, memWrite_some h]

theorem verify_of_eq : verify r v v s = (.ok (), s.setShadow r v) := by simp [verify, done]

theorem verify_status_of_ne {got : Byte} (h : got ≠ v) : verify .status v got s = (.ok (), s) := by
  simp [verify, h, done]

theorem verify_of_ne {got : Byte} (h : got ≠ v) (hr : r ≠ .status) :
    verify r v got s = (.error (.verificationFailed r v got), s) := by
  simp [verify, h, hr]

/-! ### What a confirmed write commits -/

/-- The seven registers that have a shadow (R20). -/
theorem shadowed_iff_mem (r : RegId) :
    shadowed r = true ↔ r ∈ [RegId.mode0, .mode1, .mode2, .mode3, .ref, .pga, .inpmux] := by
  cases r <;> decide

/-- Setting the register's own shadow is all that a confirmed write commits (R172, R29). -/
theorem committed_of_sh {t : State} (h : t.sh = s.sh.set r v) : committed s t r v := by
  have hown (q : RegId) (hr : r = q) : t.sh = s.sh.set q v := hr ▸ h
  have hget (hr : shadowed r = true) : t.sh.get r = some v := h ▸ shadows_get_set_self s.sh r v hr
  have hother (hr : r ∉ [RegId.mode0, .mode1, .mode2, .mode3, .ref, .pga, .inpmux]) : t.sh = s.sh :=
    h.trans (shadows_set_unshadowed s.sh r v (by simpa using mt (shadowed_iff_mem r).mp hr))
  have hlayout (hr : r = .mode3) : t.layout = (v.getLsbD 6, v.getLsbD 5) := layout_of_mode3 (hown _ hr ▸ rfl)
  exact ⟨hown _, hown _, hown _, hown _, hown _, hown _, hown _, hget, hother, hlayout⟩

/-! ### The wire commands -/

theorem exec_rreg_refused (a : Addr) (h : s.acq.resting = false) : exec (.rreg a) s = .refused .notAccepted := by
  simp [exec, execRreg, h]

theorem exec_wreg_refused (a : Addr) (v : Byte) (h : s.acq.resting = false) :
    exec (.wreg a v) s = .refused .notAccepted := by
  simp [exec, execWreg, h]

section
variable {a : Addr} (hq : s.acq.resting = true)
include hq

theorem exec_rreg_of_no_register (h : s.cfg.regMap.regAt a = none) :
    exec (.rreg a) s = .next { s with response := some (.err (.unknownIdentifier (.number a.toNat))) } := by
  simp [exec, execRreg, hq, addrOperand, h, respond_eq, toResponse]

theorem exec_wreg_of_no_register (v : Byte) (h : s.cfg.regMap.regAt a = none) :
    exec (.wreg a v) s = .next { s with response := some (.err (.unknownIdentifier (.number a.toNat))) } := by
  simp [exec, execWreg, hq, addrOperand, h, respond_eq, toResponse]

/-- RREG at a register's address is the read of that register (R52). -/
theorem exec_rreg_of_register (h : s.cfg.regMap.regAt a = some r) :
    exec (.rreg a) s = respond ((readRegister r s).mapValue .byte) := by
  simp [exec, execRreg, hq, addrOperand, h]

/-- WREG at a register's address is the write+verify cycle of that register (R53; log entry 8). -/
theorem exec_wreg_of_register (v : Byte) (h : s.cfg.regMap.regAt a = some r) :
    exec (.wreg a v) s = respond ((writeRegister r v s).mapValue fun _ => .unit) := by
  simp [exec, execWreg, hq, addrOperand, h]

end

end

/-! ### RREG and WREG -/

/-- Settles O18: RREG is the read of the register at its address, by the outcomes of that read. -/
theorem rregReadsTheRegisterAtItsAddress : Obligations.RregReadsTheRegisterAtItsAddress := by
  intro s a _
  refine ⟨fun r rx v hq hr hrx hv => ?_, fun r hq hr hrx => ?_, exec_rreg_of_no_register, exec_rreg_refused a⟩
  · obtain rfl := addr_of_regAt hr
    rw [exec_rreg_of_register hq hr, readRegister_of_reply hrx hv]
    rfl
  · obtain rfl := addr_of_regAt hr
    rw [exec_rreg_of_register hq hr, readRegister_of_fails hrx]
    rfl

/-- Settles O20: WREG is the write+verify cycle of the register at its address, by the outcomes of its two exchanges
and of the comparison. -/
theorem wregWritesAndVerifies : Obligations.WregWritesAndVerifies := by
  intro s a v _
  refine ⟨exec_wreg_refused a v, fun hq => exec_wreg_of_no_register hq v, ?_⟩
  rintro r _ _ hq hr rfl rfl
  obtain rfl := addr_of_regAt hr
  rw [exec_wreg_of_register hq v hr]
  refine ⟨fun hw => ?_, fun rx hw => ?_⟩
  · rw [writeRegister_of_write_fails hw]
    rfl
  rw [writeRegister_of_write_answered hw]
  refine ⟨fun hf => ?_, fun rx' got hrx hgot => ?_⟩
  · rw [readRegister_of_fails hf]
    rfl
  rw [readRegister_of_reply hrx hgot, andThen_ok]
  refine ⟨?_, ?_, fun hne hst => ?_⟩
  · rintro rfl
    rw [verify_of_eq]
    exact ⟨_, rfl, rfl, committed_of_sh rfl⟩
  · rintro hne rfl
    rw [verify_status_of_ne hne]
    rfl
  · rw [verify_of_ne hne hst]
    rfl

/-! ### Answered writes among the events -/

section
variable {r : RegId} {v : Byte} {s : State}

/-- An answered exchange of a WREG frame. -/
def IsWrite (c : Config) (e : Event) : Prop := ∃ a v rx, e = .xchg (frameWR c a v) (some rx)

theorem not_isWrite_failed (c : Config) (tx : List Byte) : ¬ IsWrite c (.xchg tx none) := by simp [IsWrite]

theorem not_isWrite_sampleDrdy (c : Config) (b : Bool) : ¬ IsWrite c (.sampleDrdy b) := by simp [IsWrite]

theorem not_isWrite_drive (c : Config) (l : Line) (b : Bool) : ¬ IsWrite c (.drive l b) := by simp [IsWrite]

theorem not_isWrite_delay (c : Config) (d : Duration) : ¬ IsWrite c (.delay d) := by simp [IsWrite]

/-- A frame of another length is no WREG frame. -/
theorem not_isWrite_of_length (c : Config) {tx : List Byte} (h : tx.length ≠ 5) (rx : Option (List Byte)) :
    ¬ IsWrite c (.xchg tx rx) := by
  rintro ⟨a, v, rx', e⟩
  cases e
  exact h rfl

/-- Byte 0 tells an RREG frame from a WREG frame: 0x20 to 0x3F against 0x40 to 0x5F (R76, R81). -/
theorem not_isWrite_frameRR {c : Config} (h : c.legal = true) (a : Addr) (rx : Option (List Byte)) :
    ¬ IsWrite c (.xchg (frameRR c a) rx) := by
  rintro ⟨a', v, rx', e⟩
  obtain ⟨hr, hw, -⟩ := legal_fixed h
  simp only [Event.xchg.injEq, frameRR, frameWR, List.cons_append, List.cons.injEq, hr, hw] at e
  have := e.1.1
  bv_omega

/-- A WREG frame tells its address. -/
theorem frameWR_addr_inj {c : Config} {a a' : Addr} {v v' : Byte} (h : frameWR c a v = frameWR c a' v') : a = a' := by
  simp only [frameWR, List.cons.injEq, BitVec.add_right_inj] at h
  have := h.1
  bv_omega

/-- None of the events from `s` to `t` is an answered write. -/
def WritesNothing (s t : State) : Prop := ∀ e ∈ newEvents s t, ¬ IsWrite s.cfg e

theorem newEvents_of_history {t : State} {es : List Event} (h : t.history = s.history ++ es) : newEvents s t = es := by
  simp [newEvents, h]

/-! ### Each shape of an operation writes nothing, but for the cycle -/

theorem writesNothing_of_history {t : State} (h : t.history = s.history) : WritesNothing s t := by
  simp [WritesNothing, newEvents, h]

theorem WritesNothing.of_respond {t : State} {x : Res Value} (h : WritesNothing s x.2) (e : respond x = .next t) :
    WritesNothing s t := by
  cases e
  exact h

/-- One exchange of a frame that is no WREG frame, or any failed one. -/
theorem writesNothing_of_xchg {tx : List Byte} (h : ¬ IsWrite s.cfg (.xchg tx (s.answer tx.length))) {t : State}
    (ht : t.history = (s.afterXchg tx).history) : WritesNothing s t := by
  simpa [WritesNothing, newEvents, ht] using h

theorem LookRun.writesNothing {t : State} (h : LookRun s t) : WritesNothing s t := by
  obtain ⟨_, rfl⟩ := h.eq_responding
  exact writesNothing_of_history rfl

theorem ReadRun.writesNothing (hl : s.cfg.legal = true) {t : State} (h : ReadRun s t) : WritesNothing s t := by
  cases h with
  | unknown => exact writesNothing_of_history rfl
  | fails r => exact writesNothing_of_xchg (not_isWrite_frameRR hl _ _) rfl
  | reads r _ _ _ hu =>
    obtain ⟨_, rfl⟩ := hu.eq_responding
    exact writesNothing_of_xchg (not_isWrite_frameRR hl _ _) rfl

theorem ControlRun.writesNothing {t : State} (h : ControlRun s t) : WritesNothing s t := by
  cases h with
  | fails tx _ h => exact writesNothing_of_xchg (h ▸ not_isWrite_failed _ tx) rfl
  | stops => exact writesNothing_of_xchg (not_isWrite_of_length _ (by simp) _) rfl
  | settles tx _ htx =>
    have hlen : tx.length ≠ 5 := by
      simp only [List.mem_cons, List.not_mem_nil, or_false] at htx
      rcases htx with rfl | rfl <;> simp
    simp [WritesNothing, newEvents, State.responding, not_isWrite_of_length _ hlen, not_isWrite_delay]

/-- The sequencer sends no WREG frame. -/
theorem not_isWrite_seqFrames {c : Config} (hl : c.legal = true) {tx : List Byte} (h : tx ∈ seqFrames c)
    (rx : Option (List Byte)) : ¬ IsWrite c (.xchg tx rx) := by
  simp only [seqFrames, List.mem_cons, List.not_mem_nil, or_false] at h
  rcases h with rfl | rfl | rfl
  · exact not_isWrite_of_length c (by simp) rx
  · exact not_isWrite_frameRR hl _ rx
  · exact not_isWrite_of_length c (by simp) rx

theorem Served.not_isWrite {c : Config} (hl : c.legal = true) {e : Event} (h : Served c e) : ¬ IsWrite c e := by
  rcases h with ⟨tx, rx, rfl, htx, -⟩ | ⟨b, rfl⟩
  · exact not_isWrite_seqFrames hl htx _
  · exact not_isWrite_sampleDrdy c b

theorem Sequenced.writesNothing (hl : s.cfg.legal = true) {α : Type} {x : Res α} (h : Sequenced s x) :
    WritesNothing s x.2 := by
  obtain ⟨es, hes, h⟩ := h.events
  rw [WritesNothing, newEvents_of_history hes]
  rcases h with ⟨h, -⟩ | ⟨es', tx, rfl, -, h, -⟩
  · exact fun e he => (h e he).not_isWrite hl
  · simp only [List.mem_append, List.mem_singleton]
    rintro e (he | rfl)
    · exact (h e he).not_isWrite hl
    · exact not_isWrite_failed _ _

theorem writesNothing_finish (status : Option Byte) (raw : Sample) (ref g : Nat) (s : State) :
    WritesNothing s (finish status raw ref g s).2 := by
  rcases finish_cases status raw ref g s with ⟨-, e⟩ | ⟨-, -, e⟩ | ⟨-, -, e⟩ <;> rw [e] <;>
    exact writesNothing_of_history rfl

theorem writesNothing_collect (hl : s.cfg.legal = true) (mode : Ident) (ref g : Nat) :
    WritesNothing s (collect mode ref g s).2 := by
  rcases collect_cases mode ref g s with ⟨-, e⟩ | ⟨m, -, ⟨-, e⟩ | ⟨hg, e⟩⟩ <;> rw [e]
  · exact writesNothing_of_history rfl
  · exact writesNothing_of_history rfl
  · exact (collectPhases_sequenced hg m ref s).writesNothing hl

theorem writesNothing_resetPulse (s : State) (x : Response) : WritesNothing s ((resetPulse s).responding x) := by
  simp [WritesNothing, newEvents, resetPulse_eq, State.responding, not_isWrite_drive, not_isWrite_delay]

/-- The events from `s` to `t` are an answered write of a register and the exchange of its verify read. -/
def WritesThenReads (s t : State) : Prop :=
  ∃ (r : RegId) (v : Byte) (rx : List Byte) (rx' : Option (List Byte)),
    newEvents s t = [.xchg (frameWR s.cfg (s.cfg.regMap.addr r) v) (some rx),
      .xchg (frameRR s.cfg (s.cfg.regMap.addr r)) rx']

theorem writesThenReads_of_history {rx : List Byte} (h : s.answer 5 = some rx) {t : State}
    (ht : t.history = ((s.afterXchg (frameWR s.cfg (s.cfg.regMap.addr r) v)).afterXchg
      (frameRR s.cfg (s.cfg.regMap.addr r))).history) : WritesThenReads s t :=
  ⟨r, v, rx, _, newEvents_of_history (by
    rw [ht, afterXchg_history, afterXchg_history, List.append_assoc, frameWR_length, h]; rfl)⟩

/-- The cycle whose write was answered goes on to the verify read, however it ends (R60, R172). -/
theorem WriteRun.writes {w : Option RegId} {t : State} (h : WriteRun w s t) :
    WritesNothing s t ∨ WritesThenReads s t := by
  cases h with
  | unknown => exact .inl (writesNothing_of_history rfl)
  | writeFails r v _ h => exact .inl (writesNothing_of_xchg (h ▸ not_isWrite_failed _ _) rfl)
  | readFails _ _ _ _ h | verified _ _ _ _ _ h | status _ _ _ _ h | mismatch _ _ _ _ _ h =>
    exact .inr (writesThenReads_of_history h rfl)

theorem OpRun.writes (hl : s.cfg.legal = true) {o : HostOp} {t : State} (h : OpRun s o t) :
    WritesNothing s t ∨ WritesThenReads s t := by
  cases h with
  | write _ _ _ _ _ _ _ h => exact h.writes
  | pure _ _ _ h => exact .inl h.writesNothing
  | read _ _ _ _ _ _ _ _ h => exact .inl (h.writesNothing hl)
  | control _ _ _ _ _ _ _ _ h => exact .inl h.writesNothing
  | arm _ e => exact .inl ((((arm_sequenced s).mapValue _).writesNothing hl).of_respond e)
  | enterWait => exact .inl (writesNothing_of_history rfl)
  | waitPolled _ e => exact .inl ((((waitPolled_sequenced s).mapValue _).writesNothing hl).of_respond e)
  | waitSignal _ e => exact .inl ((((waitSignal_sequenced s).mapValue _).writesNothing hl).of_respond e)
  | readData _ e => exact .inl ((((readData_sequenced s).mapValue _).writesNothing hl).of_respond e)
  | finish status raw ref g _ _ e => exact .inl ((writesNothing_finish status raw ref g s).of_respond e)
  | collect mode ref g _ e => exact .inl ((writesNothing_collect hl mode ref g).of_respond e)
  | resetPulse => exact .inl (writesNothing_resetPulse s _)

end

/-- Settles O58: an operation with an answered write is the cycle, whose only other event is the verify read. -/
theorem everyWriteIsFollowedByItsVerifyRead : Obligations.EveryWriteIsFollowedByItsVerifyRead := by
  intro o s t pre post a v rx hl e hev
  rcases (execOp_runs e).writes hl with h | ⟨r, v', rx₀, rx', h⟩
  · exact absurd ⟨a, v, rx, rfl⟩ (h (.xchg (frameWR s.cfg a v) (some rx)) (by simp [hev]))
  rw [h] at hev
  cases pre with
  | nil =>
    simp only [List.nil_append, List.cons.injEq, Event.xchg.injEq] at hev
    obtain ⟨⟨hw, -⟩, rfl⟩ := hev
    exact ⟨rx', [], by rw [frameWR_addr_inj hw]⟩
  | cons e₀ pre =>
    obtain ⟨-, hlast⟩ := List.cons.inj hev
    have hread : Event.xchg (frameWR s.cfg a v) (some rx) = .xchg (frameRR s.cfg (s.cfg.regMap.addr r)) rx' :=
      List.mem_singleton.mp (by simp [hlast])
    exact absurd ⟨a, v, rx, hread.symm⟩ (not_isWrite_frameRR hl _ rx')

end Sys2Proof.Machine
end

section
/-!
SUPPORT. The encoding (30_encoding.md): classifying a command's frame gives the command back (R81), bytes are served as
the command whose frame they are (R89), only frames of emitted commands are transmitted (R85); and the fields of the
register bytes, which the encoders place and the decoders look up (R77, R87), with the setters
and getters on them (R97).
-/

namespace Sys2Proof.Machine

section
variable {c : Config}

/-! ### The classes of R81 -/

/-- Byte 0 of an RREG frame: the class in bits 7:5, the address in bits 4:0 (R73, R76). -/
theorem rregByte_fields : ∀ a : Addr, (0x20#8 + a.setWidth 8).extractLsb' 5 3 = 0b001#3 ∧
    (0x20#8 + a.setWidth 8).extractLsb' 0 5 = a := by decide

/-- Byte 0 of a WREG frame: the class in bits 7:5, the address in bits 4:0 (R74, R76). -/
theorem wregByte_fields : ∀ a : Addr, (0x40#8 + a.setWidth 8).extractLsb' 5 3 = 0b010#3 ∧
    (0x40#8 + a.setWidth 8).extractLsb' 0 5 = a := by decide

theorem decode_frameRR (h : c.fixedLegal = true) (a : Addr) : decode c (frameRR c a) = some (.rreg a) := by
  obtain ⟨hop, -⟩ := fixed_values h
  obtain ⟨hclass, haddr⟩ := rregByte_fields a
  simp [decode, frameRR, hop, hclass, haddr]

theorem decode_frameWR (h : c.fixedLegal = true) (a : Addr) (v : Byte) :
    decode c (frameWR c a v) = some (.wreg a v) := by
  obtain ⟨-, hop, -⟩ := fixed_values h
  obtain ⟨hclass, haddr⟩ := wregByte_fields a
  simp [decode, frameWR, hop, hclass, haddr]

/-- A byte 0 in neither register class is classified by equality alone (R81). -/
theorem decode_cons_of_short {b : Byte} (hr : b.extractLsb' 5 3 ≠ 0b001#3) (hw : b.extractLsb' 5 3 ≠ 0b010#3)
    (rest : List Byte) : decode c (b :: rest) = decodeShort c b := by
  simp [decode, hr, hw]

/-- The commands the block emits are classified by the opcodes that R8 fixes, which are tested first (R81). -/
theorem decode_encode_of_emitted (h : c.fixedLegal = true) {i : Instr} (hi : instrEmitted i = true) :
    decode c (encode c i) = some i := by
  obtain ⟨-, -, hrdata, hstart, hstop, hsfocal, hsyocal, -⟩ := fixed_values h
  cases i with
  | rreg a => exact decode_frameRR h a
  | wreg a v => exact decode_frameWR h a v
  | start | stop | rdata | syocal | sfocal =>
    simp [encode, frameC2, frameC3, frameRD, decode, decodeShort, hrdata, hstart, hstop, hsfocal, hsyocal]
  | nop | reset | gancal | lock | unlock => cases hi

/-! ### The short opcodes as a table -/

/-- The commands of the short opcodes in the order in which `decodeShort` tests them. -/
def shortOpcodes (c : Config) : List (Byte × Instr) :=
  [(c.opStart, .start), (c.opStop, .stop), (c.opRdata, .rdata), (c.opSyocal, .syocal), (c.opSfocal, .sfocal),
   (c.opReset, .reset), (c.opNop, .nop), (c.opGancal, .gancal), (c.opLock, .lock), (c.opUnlock, .unlock)]

/-- Looking up a key tests the first row, then the others. -/
theorem map_find_cons {α β : Type} [DecidableEq α] (k : α) (x : β) (t : List (α × β)) (b : α) :
    (((k, x) :: t).find? fun row => row.1 == b).map (·.2) =
      if b = k then some x else (t.find? fun row => row.1 == b).map (·.2) := by
  by_cases h : k = b
  · simp [h]
  · simp [h, Ne.symm h]

theorem decodeShort_eq_find (c : Config) (b : Byte) :
    decodeShort c b = ((shortOpcodes c).find? fun row => row.1 == b).map (·.2) := by
  simp only [shortOpcodes, map_find_cons]
  rfl

/-- Where no opcode repeats, each opcode of the table is its own command's. -/
theorem decodeShort_of_mem (h : ((shortOpcodes c).map Prod.fst).Nodup) {b : Byte} {i : Instr}
    (hm : (b, i) ∈ shortOpcodes c) : decodeShort c b = some i := by
  rw [decodeShort_eq_find, (find_by_key Prod.fst _ h b (b, i)).mpr ⟨hm, rfl⟩]
  rfl

/-- A parameter opcode that lies in no other class is classified as its command, whatever bytes follow (R81). -/
theorem decode_parameter_opcode (h : c.opcodesDisjoint = true) {b : Byte} {i : Instr}
    (hb : b ∈ [c.opReset, c.opNop, c.opGancal, c.opLock, c.opUnlock]) (hm : (b, i) ∈ shortOpcodes c)
    (rest : List Byte) : decode c (b :: rest) = some i := by
  simp only [Config.opcodesDisjoint, Bool.and_eq_true, decide_eq_true_eq, List.all_eq_true, bne_iff_ne] at h
  obtain ⟨hnodup, hclass⟩ := h
  obtain ⟨hr, hw⟩ := hclass b hb
  rw [decode_cons_of_short hr hw, decodeShort_of_mem hnodup hm]

/-- Classifying the frame of a command gives the command back (R81, R79). -/
theorem decode_encode (h : c.fixedLegal = true) (hd : c.opcodesDisjoint = true) (i : Instr) :
    decode c (encode c i) = some i := by
  cases i with
  | start | stop | rdata | syocal | sfocal | rreg | wreg => exact decode_encode_of_emitted h rfl
  | nop | reset | gancal | lock | unlock =>
    exact decode_parameter_opcode hd (by simp) (by simp [shortOpcodes]) _

end

/-- Settles O1: each class of R81 gives its command back, and the frame is compared with itself (`recognise_encode`). -/
theorem decodeOfEncodeGivesTheCommand : Obligations.DecodeOfEncodeGivesTheCommand :=
  fun _ i h hd => ⟨decode_encode h hd i, recognise_encode (decode_encode h hd i)⟩

/-- Settles O3: each word is a closed one, decoded at the default parameters. -/
theorem wordsOfTheTableDecode : Obligations.WordsOfTheTableDecode := by
  unfold Obligations.WordsOfTheTableDecode
  decide

/-! ### A frame as the next request -/

/-- The step takes the request and compares it byte for byte (R81, R89). -/
theorem step_frame {s : State} {f : List Byte} {rest : List Request} (hl : s.cfg.legal = true)
    (hin : s.inbox = .frame f :: rest) : step s = serveFrame f (s.taking rest) := by
  simp [step, hl, hin, serve, State.taking]

theorem serveFrame_of_recognised {s : State} {f : List Byte} {i : Instr} (h : recognise s.cfg f = some i) :
    serveFrame f s = exec i s := by
  simp [serveFrame, h]

theorem serveFrame_of_not_recognised {s : State} {f : List Byte} (h : recognise s.cfg f = none) :
    serveFrame f s = .refused .notACommandFrame := by
  simp [serveFrame, h]

/-- Settles O54: the bytes are recognised as a command exactly where they are its frame (`recognise_eq_some`). -/
theorem stepRunsTheDecodedCommand : Obligations.StepRunsTheDecodedCommand := by
  intro s f rest hl hin
  rw [step_frame hl hin]
  refine ⟨fun i hd he => serveFrame_of_recognised (recognise_eq_some.mpr ⟨hd, he⟩), fun hne => ?_⟩
  have hnone : recognise s.cfg f = none := Option.eq_none_iff_forall_ne_some.mpr fun i hi =>
    have ⟨hd, he⟩ := recognise_eq_some.mp hi
    hne i hd he
  exact serveFrame_of_not_recognised hnone

/-! ### What is transmitted -/

/-- The frame is that of a command the block emits, at the address of a register if it has one, and is classified as it
(R81, R85). -/
def EmittedFrame (c : Config) (tx : List Byte) : Prop :=
  ∃ i : Instr, instrEmitted i = true ∧ i.wellFormed c = true ∧ tx = encode c i ∧ decode c tx = some i

/-- If the event is an exchange, it is one of an emitted frame, and a reply has the frame's length (R14, R82). -/
def EmittedEvent (c : Config) (e : Event) : Prop :=
  ∀ tx rx, e = .xchg tx rx → EmittedFrame c tx ∧ ∀ l, rx = some l → l.length = tx.length

section
variable {c : Config} (hl : c.legal = true)
include hl

theorem emittedFrame_encode {i : Instr} (hi : instrEmitted i = true) (hw : i.wellFormed c = true) :
    EmittedFrame c (encode c i) := by
  obtain ⟨-, -, -, hfixed, -⟩ := legal_parts hl
  exact ⟨i, hi, hw, rfl, decode_encode_of_emitted hfixed hi⟩

theorem emittedFrame_start : EmittedFrame c (frameC3 c.opStart) := emittedFrame_encode hl (i := .start) rfl rfl

theorem emittedFrame_stop : EmittedFrame c (frameC3 c.opStop) := emittedFrame_encode hl (i := .stop) rfl rfl

theorem emittedFrame_rdata : EmittedFrame c (frameRD c) := emittedFrame_encode hl (i := .rdata) rfl rfl

theorem emittedFrame_syocal : EmittedFrame c (frameC2 c.opSyocal) := emittedFrame_encode hl (i := .syocal) rfl rfl

theorem emittedFrame_sfocal : EmittedFrame c (frameC2 c.opSfocal) := emittedFrame_encode hl (i := .sfocal) rfl rfl

theorem emittedFrame_rreg (r : RegId) : EmittedFrame c (frameRR c (c.regMap.addr r)) :=
  emittedFrame_encode hl (i := .rreg _) rfl (regAt_addr_isSome c.regMap r)

theorem emittedFrame_wreg (r : RegId) (v : Byte) : EmittedFrame c (frameWR c (c.regMap.addr r) v) :=
  emittedFrame_encode hl (i := .wreg _ v) rfl (regAt_addr_isSome c.regMap r)

theorem emittedFrame_of_mem_seqFrames {tx : List Byte} (h : tx ∈ seqFrames c) : EmittedFrame c tx := by
  simp only [seqFrames, List.mem_cons, List.not_mem_nil, or_false] at h
  rcases h with rfl | rfl | rfl
  · exact emittedFrame_start hl
  · exact emittedFrame_rreg hl .status
  · exact emittedFrame_rdata hl

theorem emittedFrame_of_mem_calibrations {tx : List Byte} (h : tx ∈ [frameC2 c.opSfocal, frameC2 c.opSyocal]) :
    EmittedFrame c tx := by
  simp only [List.mem_cons, List.not_mem_nil, or_false] at h
  rcases h with rfl | rfl
  · exact emittedFrame_sfocal hl
  · exact emittedFrame_syocal hl

theorem Served.emittedEvent {e : Event} (h : Served c e) : EmittedEvent c e := by
  rcases h with ⟨tx, rx, rfl, htx, hlen⟩ | ⟨b, rfl⟩
  · rintro _ _ ⟨⟩
    exact ⟨emittedFrame_of_mem_seqFrames hl htx, by simpa using hlen⟩
  · rintro _ _ ⟨⟩

end

theorem emittedEvent_of_failed {c : Config} {tx : List Byte} (h : EmittedFrame c tx) :
    EmittedEvent c (.xchg tx none) := by
  rintro _ _ ⟨⟩
  exact ⟨h, nofun⟩

/-- `t` has the parameters of `s`, and its history continues that of `s` by events that are emitted. -/
structure Emits (s t : State) : Prop where
  cfg : t.cfg = s.cfg
  events : ∃ es, t.history = s.history ++ es ∧ ∀ e ∈ es, EmittedEvent s.cfg e

namespace Emits

variable {s t u : State}

theorem of_history (hc : t.cfg = s.cfg) (h : t.history = s.history) : Emits s t := ⟨hc, [], by simp [h]⟩

theorem refl (s : State) : Emits s s := of_history rfl rfl

theorem trans (h : Emits s t) (h' : Emits t u) : Emits s u := by
  obtain ⟨hc, es, he, hes⟩ := h
  obtain ⟨hc', es', he', hes'⟩ := h'
  refine ⟨hc'.trans hc, es ++ es', by rw [he', he, List.append_assoc], fun e hm => ?_⟩
  rcases List.mem_append.mp hm with hm | hm
  · exact hes e hm
  · exact hc ▸ hes' e hm

theorem responding (h : Emits s t) (r : Response) : Emits s (t.responding r) := h.trans (of_history rfl rfl)

theorem of_respond {r : Res Value} (h : Emits s r.2) (e : respond r = .next t) : Emits s t := by
  cases e
  exact h.responding _

theorem afterXchg (h : Emits s t) {tx : List Byte} (htx : EmittedFrame s.cfg tx) : Emits s (t.afterXchg tx) := by
  refine h.trans ⟨rfl, [.xchg tx (t.answer tx.length)], afterXchg_history t tx, ?_⟩
  simp only [List.mem_singleton]
  rintro _ rfl _ _ ⟨⟩
  exact ⟨h.cfg ▸ htx, fun l => answer_length⟩

theorem delay (h : Emits s t) (d : Duration) : Emits s (t.delay d) :=
  h.trans ⟨rfl, [.delay d], rfl, by simp [EmittedEvent]⟩

/-- The events of an abandoned operation are the first of the whole operation's (U24). -/
theorem abandon (h : Emits s t) (n : Nat) : Emits s (s.abandon t n) := by
  obtain ⟨-, es, he, hes⟩ := h
  refine ⟨rfl, es.take n, ?_, fun e hm => hes e (List.mem_of_mem_take hm)⟩
  simp [State.abandon, he]

theorem mem_newEvents (h : Emits s t) {tx : List Byte} {rx : Option (List Byte)} (hm : .xchg tx rx ∈ newEvents s t) :
    EmittedFrame s.cfg tx ∧ ∀ l, rx = some l → l.length = tx.length := by
  obtain ⟨-, es, he, hes⟩ := h
  rw [newEvents_of_history he] at hm
  exact hes _ hm tx rx rfl

end Emits

theorem LookRun.emits {s t : State} (h : LookRun s t) : Emits s t := by
  obtain ⟨r, rfl⟩ := h.eq_responding
  exact (Emits.refl s).responding r

theorem emits_finish (status : Option Byte) (raw : Sample) (ref g : Nat) (s : State) :
    Emits s (finish status raw ref g s).2 := by
  rcases finish_cases status raw ref g s with ⟨-, e⟩ | ⟨-, -, e⟩ | ⟨-, -, e⟩ <;> rw [e] <;>
    exact Emits.of_history rfl rfl

theorem emits_resetPulse (s : State) : Emits s (resetPulse s) := by
  rw [resetPulse_eq]
  exact ⟨rfl, _, rfl, by simp [EmittedEvent]⟩

section
variable {s t : State} (hl : s.cfg.legal = true)
include hl

theorem ReadRun.emits (h : ReadRun s t) : Emits s t := by
  have hread (r : RegId) := (Emits.refl s).afterXchg (emittedFrame_rreg hl r)
  cases h with
  | unknown => exact (Emits.refl s).responding _
  | fails r => exact (hread r).responding _
  | reads r _ _ _ hu => exact (hread r).trans hu.emits

theorem WriteRun.emits {w : Option RegId} (h : WriteRun w s t) : Emits s t := by
  have hwrite (r : RegId) (v : Byte) := (Emits.refl s).afterXchg (emittedFrame_wreg hl r v)
  have hread (r : RegId) (v : Byte) := (hwrite r v).afterXchg (emittedFrame_rreg hl r)
  cases h with
  | unknown => exact (Emits.refl s).responding _
  | writeFails r v => exact (hwrite r v).responding _
  | readFails r v | mismatch r v => exact (hread r v).responding _
  | status v => exact (hread .status v).responding _
  | verified r v => exact (hread r v).trans (Emits.of_history rfl rfl)

theorem ControlRun.emits (h : ControlRun s t) : Emits s t := by
  have hsend {tx : List Byte} (htx : EmittedFrame s.cfg tx) := (Emits.refl s).afterXchg htx
  cases h with
  | fails tx htx =>
    rcases List.mem_cons.mp htx with rfl | htx
    · exact (hsend (emittedFrame_stop hl)).responding _
    · exact (hsend (emittedFrame_of_mem_calibrations hl htx)).responding _
  | stops => exact (hsend (emittedFrame_stop hl)).responding _
  | settles tx _ htx => exact ((hsend (emittedFrame_of_mem_calibrations hl htx)).delay _).responding _

theorem Sequenced.emits {α : Type} {r : Res α} (h : Sequenced s r) : Emits s r.2 := by
  obtain ⟨es, hes, hev⟩ := h.events
  refine ⟨h.regs.cfg, es, hes, ?_⟩
  rcases hev with ⟨h, -⟩ | ⟨es', tx, rfl, htx, h, -⟩
  · exact fun e he => (h e he).emittedEvent hl
  · simp only [List.mem_append, List.mem_singleton]
    rintro e (he | rfl)
    · exact (h e he).emittedEvent hl
    · exact emittedEvent_of_failed (emittedFrame_of_mem_seqFrames hl htx)

theorem emits_collect (mode : Ident) (ref g : Nat) : Emits s (collect mode ref g s).2 := by
  rcases collect_cases mode ref g s with ⟨-, e⟩ | ⟨m, -, ⟨-, e⟩ | ⟨hg, e⟩⟩ <;> rw [e]
  · exact Emits.refl s
  · exact Emits.refl s
  · exact (collectPhases_sequenced hg m ref s).emits hl

theorem OpRun.emits {o : HostOp} (h : OpRun s o t) : Emits s t := by
  cases h with
  | pure _ _ _ h => exact h.emits
  | read _ _ _ _ _ _ _ _ h => exact h.emits hl
  | write _ _ _ _ _ _ _ h => exact h.emits hl
  | control _ _ _ _ _ _ _ _ h => exact h.emits hl
  | arm _ e => exact (((arm_sequenced s).mapValue _).emits hl).of_respond e
  | enterWait => exact Emits.of_history rfl rfl
  | waitPolled _ e => exact (((waitPolled_sequenced s).mapValue _).emits hl).of_respond e
  | waitSignal _ e => exact (((waitSignal_sequenced s).mapValue _).emits hl).of_respond e
  | readData _ e => exact (((readData_sequenced s).mapValue _).emits hl).of_respond e
  | finish status raw ref g _ _ e => exact (emits_finish status raw ref g s).of_respond e
  | collect mode ref g _ e => exact (emits_collect hl mode ref g).of_respond e
  | resetPulse => exact (emits_resetPulse s).responding _

theorem ExecRun.emits {i : Instr} (h : ExecRun s t i) : Emits s t := by
  cases h with
  | reset h => exact h ▸ (Emits.refl s).responding _
  | start e | stop e | rdata e | syocal e | sfocal e => exact (execOp_runs e).emits hl
  | rreg _ h => exact h.emits hl
  | wreg _ _ h => exact h.emits hl

theorem StepRun.emits (h : StepRun s t) : Emits s t := by
  have htake (rest : List Request) : Emits s (s.taking rest) := Emits.of_history rfl rfl
  cases h with
  | waits => exact Emits.refl s
  | op _ rest _ _ e => exact (htake rest).trans ((execOp_runs e).emits hl)
  | frame _ _ rest _ _ _ e => exact (htake rest).trans ((exec_runs e).emits hl)
  | blockReset | resetBefore => exact Emits.of_history rfl rfl
  | resetDuring _ n rest u _ e =>
    have hop : Emits (s.taking rest) u := (execOp_runs e).emits hl
    exact (htake rest).trans (hop.abandon n)

end

/-- Settles O57: every shape of a step transmits frames of emitted commands only, which byte 0 classifies as theirs. -/
theorem onlyEmittedCommandsAreTransmitted : Obligations.OnlyEmittedCommandsAreTransmitted := by
  intro s t tx rx e hm
  obtain ⟨hl, h⟩ := step_runs e
  exact (h.emits hl).mem_newEvents hm

/-! ### The encoders (R77) -/

theorem inpmuxByte_toNat : ∀ p n : BitVec 4, (inpmuxByte p n).toNat = 16 * p.toNat + n.toNat := by decide

theorem pgaByte_toNat : ∀ (b : Bool) (g : BitVec 3), (pgaByte b g).toNat = 128 * b.toNat + g.toNat := by decide

theorem refByte_toNat : ∀ (e : Bool) (p n : BitVec 2),
    (refByte e p n).toNat = 16 * e.toNat + 4 * p.toNat + n.toNat := by decide

theorem mode0Byte_toNat : ∀ (d : BitVec 5) (f : BitVec 3), (mode0Byte d f).toNat = 8 * d.toNat + f.toNat := by decide

theorem mode1Byte_toNat : ∀ (c : BitVec 2) (t : BitVec 1) (d : BitVec 4),
    (mode1Byte c t d).toNat = 32 * c.toNat + 16 * t.toNat + d.toNat := by decide

theorem mode3Byte_toNat (f : Mode3Flags) : (mode3Byte f).toNat =
    128 * f.pwdn.toNat + 64 * f.statenb.toNat + 32 * f.crcenb.toNat + 16 * f.spitim.toNat +
      8 * f.gpio3.toNat + 4 * f.gpio2.toNat + 2 * f.gpio1.toNat + f.gpio0.toNat := by
  obtain ⟨pwdn, statenb, crcenb, spitim, gpio3, gpio2, gpio1, gpio0⟩ := f
  revert pwdn statenb crcenb spitim gpio3 gpio2 gpio1 gpio0
  decide

theorem gainCode_eq_some_iff {g : Nat} {k : BitVec 3} : gainCode g = some k ↔ gainOfCode k = g :=
  ⟨gainOfCode_of_gainCode, fun h => h ▸ gainCode_gainOfCode k⟩

/-- A look-up that does not end the operation has found its value. -/
theorem known_andThen_eq_ok {α β : Type} {u : Unknown} {x : Option α} {k : α → State → Res β} {b : β} {s t : State} :
    (known u x s).andThen k = (.ok b, t) ↔ ∃ a, x = some a ∧ k a s = (.ok b, t) := by
  cases x <;> simp

theorem known_mapValue_eq_ok {α β : Type} {u : Unknown} {x : Option α} {f : α → β} {b : β} {s : State} :
    (known u x s).mapValue f = (.ok b, s) ↔ ∃ a, x = some a ∧ f a = b := by
  cases x <;> simp [done]

section
variable {s : State} {v : Byte}

theorem encInpmux_eq_ok {pos : Ident} {neg : Option Ident} : encInpmux pos neg s = (.ok v, s) ↔
    ∃ p n, Table.enc s.cfg.pinTable pos = some p ∧ Table.enc s.cfg.pinTable (neg.getD defaultNeg) = some n ∧
      inpmuxByte p n = v := by
  simp only [encInpmux, encName, known_andThen_eq_ok, known_mapValue_eq_ok, exists_and_left]

theorem encPga_eq_ok {b : Bool} {g : Nat} : encPga b g s = (.ok v, s) ↔
    ∃ k, gainOfCode k = g ∧ pgaByte b k = v := by
  simp only [encPga, gainOperand, known_mapValue_eq_ok, gainCode_eq_some_iff]

theorem encRef_eq_ok {e : Bool} {pos neg : Ident} : encRef e pos neg s = (.ok v, s) ↔
    ∃ p n, Table.enc s.cfg.refPTable pos = some p ∧ Table.enc s.cfg.refNTable neg = some n ∧ refByte e p n = v := by
  simp only [encRef, encName, known_andThen_eq_ok, known_mapValue_eq_ok, exists_and_left]

theorem encMode0_eq_ok {rate filter : Ident} : encMode0 rate filter s = (.ok v, s) ↔
    ∃ d f, Table.enc s.cfg.rateTable rate = some d ∧ Table.enc s.cfg.filterTable filter = some f ∧
      mode0Byte d f = v := by
  simp only [encMode0, encName, known_andThen_eq_ok, known_mapValue_eq_ok, exists_and_left]

theorem encMode1_eq_ok {chop conv delay : Ident} : encMode1 chop conv delay s = (.ok v, s) ↔
    ∃ c t d, Table.enc s.cfg.chopTable chop = some c ∧ Table.enc s.cfg.convTable conv = some t ∧
      Table.enc s.cfg.delayTable delay = some d ∧ mode1Byte c t d = v := by
  simp only [encMode1, encName, known_andThen_eq_ok, known_mapValue_eq_ok, exists_and_left]

end

/-- A byte is the one assembled exactly where their numbers agree, in the order in which R77 states it. -/
theorem byte_eq_iff_toNat {b v : Byte} : b = v ↔ v.toNat = b.toNat := by rw [eq_comm, BitVec.toNat_inj]

/-- Settles O12: an encoder that succeeds has looked each option up, and its byte is the sum of the placed codes. -/
theorem registerBytesPlaceTheirFields : Obligations.RegisterBytesPlaceTheirFields := by
  intro s v
  refine ⟨fun pos neg => ?_, fun b g => ?_, fun e pos neg => ?_, fun rate filter => ?_, fun chop conv delay => ?_,
    mode3Byte_toNat, fun _ => rfl⟩
  · simp only [encInpmux_eq_ok, byte_eq_iff_toNat, inpmuxByte_toNat, defaultNeg]
  · simp only [encPga_eq_ok, byte_eq_iff_toNat, pgaByte_toNat, gainOfCode]
    constructor
    · rintro ⟨k, hk, hv⟩
      exact ⟨k.toNat, k.isLt, hk.symm, hv⟩
    · rintro ⟨k, hk, hg, hv⟩
      exact ⟨BitVec.ofNatLT k hk, hg.symm, hv⟩
  · simp only [encRef_eq_ok, byte_eq_iff_toNat, refByte_toNat]
  · simp only [encMode0_eq_ok, byte_eq_iff_toNat, mode0Byte_toNat]
  · simp only [encMode1_eq_ok, byte_eq_iff_toNat, mode1Byte_toNat]

/-! ### The decoders, field by field (R87, R130) -/

theorem decCode_of_mapped {w : Nat} {t : Table w} {k : BitVec w} {n : Ident} (h : t.dec k = some n) (s : State) :
    decCode t k s = done n s := by simp [decCode, h]

theorem decCode_of_unmapped {w : Nat} {t : Table w} {k : BitVec w} (h : t.dec k = none) (s : State) :
    decCode t k s = (.error (.unknownIdentifier (.pattern w k.toNat)), s) := by simp [decCode, h]

section
variable {s : State} {v : Byte} {a b d : Ident}

theorem decInpmux_of_unmapped_pos (h : Table.dec s.cfg.pinTable (field v 4 4) = none) :
    decInpmux v s = (.error (.unknownIdentifier (.pattern 4 (field v 4 4).toNat)), s) := by
  simp [decInpmux, decCode_of_unmapped h]

theorem decInpmux_of_unmapped_neg (h : Table.dec s.cfg.pinTable (field v 4 4) = some a)
    (h' : Table.dec s.cfg.pinTable (field v 0 4) = none) :
    decInpmux v s = (.error (.unknownIdentifier (.pattern 4 (field v 0 4).toNat)), s) := by
  simp [decInpmux, decCode_of_mapped h, decCode_of_unmapped h']

theorem decInpmux_of_mapped (h : Table.dec s.cfg.pinTable (field v 4 4) = some a)
    (h' : Table.dec s.cfg.pinTable (field v 0 4) = some b) : decInpmux v s = (.ok (.inputPair a b), s) := by
  simp [decInpmux, decCode_of_mapped h, decCode_of_mapped h', done]

theorem decRef_of_unmapped_pos (h : Table.dec s.cfg.refPTable (field v 2 2) = none) :
    decRef v s = (.error (.unknownIdentifier (.pattern 2 (field v 2 2).toNat)), s) := by
  simp [decRef, decCode_of_unmapped h]

theorem decRef_of_unmapped_neg (h : Table.dec s.cfg.refPTable (field v 2 2) = some a)
    (h' : Table.dec s.cfg.refNTable (field v 0 2) = none) :
    decRef v s = (.error (.unknownIdentifier (.pattern 2 (field v 0 2).toNat)), s) := by
  simp [decRef, decCode_of_mapped h, decCode_of_unmapped h']

theorem decRef_of_mapped (h : Table.dec s.cfg.refPTable (field v 2 2) = some a)
    (h' : Table.dec s.cfg.refNTable (field v 0 2) = some b) :
    decRef v s = (.ok (.reference (v.getLsbD 4) a b), s) := by
  simp [decRef, decCode_of_mapped h, decCode_of_mapped h', done]

theorem decMode0_of_unmapped_rate (h : Table.dec s.cfg.rateTable (field v 3 5) = none) :
    decMode0 v s = (.error (.unknownIdentifier (.pattern 5 (field v 3 5).toNat)), s) := by
  simp [decMode0, decCode_of_unmapped h]

theorem decMode0_of_unmapped_filter (h : Table.dec s.cfg.rateTable (field v 3 5) = some a)
    (h' : Table.dec s.cfg.filterTable (field v 0 3) = none) :
    decMode0 v s = (.error (.unknownIdentifier (.pattern 3 (field v 0 3).toNat)), s) := by
  simp [decMode0, decCode_of_mapped h, decCode_of_unmapped h']

theorem decMode0_of_mapped (h : Table.dec s.cfg.rateTable (field v 3 5) = some a)
    (h' : Table.dec s.cfg.filterTable (field v 0 3) = some b) : decMode0 v s = (.ok (.mode0 a b), s) := by
  simp [decMode0, decCode_of_mapped h, decCode_of_mapped h', done]

theorem decMode1_of_unmapped_chop (h : Table.dec s.cfg.chopTable (field v 5 2) = none) :
    decMode1 v s = (.error (.unknownIdentifier (.pattern 2 (field v 5 2).toNat)), s) := by
  simp [decMode1, decCode_of_unmapped h]

theorem decMode1_of_unmapped_conv (h : Table.dec s.cfg.chopTable (field v 5 2) = some a)
    (h' : Table.dec s.cfg.convTable (field v 4 1) = none) :
    decMode1 v s = (.error (.unknownIdentifier (.pattern 1 (field v 4 1).toNat)), s) := by
  simp [decMode1, decCode_of_mapped h, decCode_of_unmapped h']

theorem decMode1_of_unmapped_delay (h : Table.dec s.cfg.chopTable (field v 5 2) = some a)
    (h' : Table.dec s.cfg.convTable (field v 4 1) = some b) (h'' : Table.dec s.cfg.delayTable (field v 0 4) = none) :
    decMode1 v s = (.error (.unknownIdentifier (.pattern 4 (field v 0 4).toNat)), s) := by
  simp [decMode1, decCode_of_mapped h, decCode_of_mapped h', decCode_of_unmapped h'']

theorem decMode1_of_mapped (h : Table.dec s.cfg.chopTable (field v 5 2) = some a)
    (h' : Table.dec s.cfg.convTable (field v 4 1) = some b) (h'' : Table.dec s.cfg.delayTable (field v 0 4) = some d) :
    decMode1 v s = (.ok (.mode1 a b d), s) := by
  simp [decMode1, decCode_of_mapped h, decCode_of_mapped h', decCode_of_mapped h'', done]

end

/-! ### The codes of the default tables (log entry 2) -/

theorem default_pin_mapped : ∀ k : BitVec 4, (Table.dec Config.default.pinTable k).isSome = true := by decide

theorem default_refP_mapped : ∀ k : BitVec 2, (Table.dec Config.default.refPTable k).isSome = true := by decide

theorem default_refN_mapped : ∀ k : BitVec 2, (Table.dec Config.default.refNTable k).isSome = true := by decide

theorem default_chop_mapped : ∀ k : BitVec 2, (Table.dec Config.default.chopTable k).isSome = true := by decide

theorem default_conv_mapped : ∀ k : BitVec 1, (Table.dec Config.default.convTable k).isSome = true := by decide

theorem default_rate_unmapped : ∀ k : BitVec 5, 17 ≤ k.toNat → Table.dec Config.default.rateTable k = none := by decide

theorem default_rate_mapped : ∀ k : BitVec 5, k.toNat < 17 → (Table.dec Config.default.rateTable k).isSome = true := by
  decide

theorem default_filter_unmapped : ∀ k : BitVec 3, 5 ≤ k.toNat → Table.dec Config.default.filterTable k = none := by
  decide

theorem default_filter_mapped : ∀ k : BitVec 3, k.toNat < 5 →
    (Table.dec Config.default.filterTable k).isSome = true := by
  decide

theorem default_delay_unmapped : ∀ k : BitVec 4, 14 ≤ k.toNat → Table.dec Config.default.delayTable k = none := by
  decide

theorem default_delay_mapped : ∀ k : BitVec 4, k.toNat < 14 →
    (Table.dec Config.default.delayTable k).isSome = true := by
  decide

section
variable {s : State} {v : Byte} (hs : s.cfg = Config.default)
include hs

theorem decMode0_of_default_of_rate_ge (h : 17 ≤ (field v 3 5).toNat) :
    decMode0 v s = (.error (.unknownIdentifier (.pattern 5 (field v 3 5).toNat)), s) :=
  decMode0_of_unmapped_rate (hs ▸ default_rate_unmapped _ h)

theorem decMode0_of_default_of_filter_ge (hr : (field v 3 5).toNat < 17) (h : 5 ≤ (field v 0 3).toNat) :
    decMode0 v s = (.error (.unknownIdentifier (.pattern 3 (field v 0 3).toNat)), s) := by
  obtain ⟨a, ha⟩ := Option.isSome_iff_exists.mp (default_rate_mapped _ hr)
  exact decMode0_of_unmapped_filter (hs ▸ ha) (hs ▸ default_filter_unmapped _ h)

theorem decMode0_of_default_of_lt (hr : (field v 3 5).toNat < 17) (h : (field v 0 3).toNat < 5) :
    ∃ a b, decMode0 v s = (.ok (.mode0 a b), s) := by
  obtain ⟨a, ha⟩ := Option.isSome_iff_exists.mp (default_rate_mapped _ hr)
  obtain ⟨b, hb⟩ := Option.isSome_iff_exists.mp (default_filter_mapped _ h)
  exact ⟨a, b, decMode0_of_mapped (hs ▸ ha) (hs ▸ hb)⟩

theorem decMode1_of_default_of_delay_ge (h : 14 ≤ (field v 0 4).toNat) :
    decMode1 v s = (.error (.unknownIdentifier (.pattern 4 (field v 0 4).toNat)), s) := by
  obtain ⟨a, ha⟩ := Option.isSome_iff_exists.mp (default_chop_mapped (field v 5 2))
  obtain ⟨b, hb⟩ := Option.isSome_iff_exists.mp (default_conv_mapped (field v 4 1))
  exact decMode1_of_unmapped_delay (hs ▸ ha) (hs ▸ hb) (hs ▸ default_delay_unmapped _ h)

theorem decMode1_of_default_of_delay_lt (h : (field v 0 4).toNat < 14) :
    ∃ a b d, decMode1 v s = (.ok (.mode1 a b d), s) := by
  obtain ⟨a, ha⟩ := Option.isSome_iff_exists.mp (default_chop_mapped (field v 5 2))
  obtain ⟨b, hb⟩ := Option.isSome_iff_exists.mp (default_conv_mapped (field v 4 1))
  obtain ⟨d, hd⟩ := Option.isSome_iff_exists.mp (default_delay_mapped _ h)
  exact ⟨a, b, d, decMode1_of_mapped (hs ▸ ha) (hs ▸ hb) (hs ▸ hd)⟩

theorem decInpmux_of_default (v : Byte) : ∃ a b, decInpmux v s = (.ok (.inputPair a b), s) := by
  obtain ⟨a, ha⟩ := Option.isSome_iff_exists.mp (default_pin_mapped (field v 4 4))
  obtain ⟨b, hb⟩ := Option.isSome_iff_exists.mp (default_pin_mapped (field v 0 4))
  exact ⟨a, b, decInpmux_of_mapped (hs ▸ ha) (hs ▸ hb)⟩

theorem decRef_of_default (v : Byte) : ∃ e a b, decRef v s = (.ok (.reference e a b), s) := by
  obtain ⟨a, ha⟩ := Option.isSome_iff_exists.mp (default_refP_mapped (field v 2 2))
  obtain ⟨b, hb⟩ := Option.isSome_iff_exists.mp (default_refN_mapped (field v 0 2))
  exact ⟨_, a, b, decRef_of_mapped (hs ▸ ha) (hs ▸ hb)⟩

end

/-- Settles O13: each decoder field by field from the most significant down, then the codes of the default tables. -/
theorem unmappedPatternsRaiseUnknownIdentifier : Obligations.UnmappedPatternsRaiseUnknownIdentifier := by
  intro s v
  refine ⟨?inpmux, ?ref, ?mode0, ?mode1, ⟨_, _, rfl⟩, fun hs => ?default⟩
  case inpmux =>
    rintro _ _ rfl rfl
    exact ⟨decInpmux_of_unmapped_pos, fun _ => decInpmux_of_unmapped_neg, fun _ _ => decInpmux_of_mapped⟩
  case ref =>
    rintro _ _ rfl rfl
    exact ⟨decRef_of_unmapped_pos, fun _ => decRef_of_unmapped_neg, fun _ _ => decRef_of_mapped⟩
  case mode0 =>
    rintro _ _ rfl rfl
    exact ⟨decMode0_of_unmapped_rate, fun _ => decMode0_of_unmapped_filter, fun _ _ => decMode0_of_mapped⟩
  case mode1 =>
    rintro _ _ _ rfl rfl rfl
    exact ⟨decMode1_of_unmapped_chop, fun _ => decMode1_of_unmapped_conv, fun _ _ => decMode1_of_unmapped_delay,
      fun _ _ _ => decMode1_of_mapped⟩
  case default =>
    exact ⟨decMode0_of_default_of_rate_ge hs, decMode0_of_default_of_filter_ge hs, decMode0_of_default_of_lt hs,
      decMode1_of_default_of_delay_ge hs, decMode1_of_default_of_delay_lt hs, decInpmux_of_default hs v,
      decRef_of_default hs v⟩

/-! ### The typed setters -/

/-- Once the encode has given a byte, a setter is the write+verify cycle of its register (R97). -/
theorem setter_eq_writeRegister {r : RegId} {enc : State → Res Byte} {v : Byte} {s : State} (h : enc s = (.ok v, s)) :
    setter r enc s = execOp (.writeRegister r.name v) s := by
  simp [setter, execOp, opWriteRegister, regOperand, h]

/-- Settles O15: the seven setters have one shape, and the two that take a byte or flags encode without a look-up. -/
theorem settersAreEncodeThenWriteRegister : Obligations.SettersAreEncodeThenWriteRegister :=
  fun _ _ => ⟨fun _ _ h => setter_eq_writeRegister h, fun _ _ h => setter_eq_writeRegister h,
    fun _ _ _ h => setter_eq_writeRegister h, fun _ _ h => setter_eq_writeRegister h,
    fun _ _ _ h => setter_eq_writeRegister h, setter_eq_writeRegister rfl, fun _ => setter_eq_writeRegister rfl⟩

/-! ### The typed getters -/

/-- The result depends on the configuration alone, and the state stays. -/
def ReadsConfig {α : Type} (f : State → Res α) : Prop := ∀ s t : State, t.cfg = s.cfg → f t = ((f s).1, t)

section
variable {α β : Type}

theorem readsConfig_done (v : α) : ReadsConfig fun s => done v s := fun _ _ _ => rfl

theorem readsConfig_known (u : Unknown) (x : Config → Option α) : ReadsConfig fun s => known u (x s.cfg) s := by
  intro s t h
  simp only [h]
  cases x s.cfg <;> rfl

theorem ReadsConfig.andThen {f : State → Res α} {k : α → State → Res β} (hf : ReadsConfig f)
    (hk : ∀ v, ReadsConfig (k v)) : ReadsConfig fun s => (f s).andThen k := by
  intro s t h
  have hs := hf s s rfl
  have ht := hf s t h
  cases hv : (f s).1 with
  | error e =>
    rw [hv] at hs ht
    simp only [hs, ht, andThen_error]
  | ok v =>
    rw [hv] at hs ht
    simp only [hs, ht, andThen_ok]
    exact hk v s t h

theorem ReadsConfig.mapValue {f : State → Res α} (g : α → β) (hf : ReadsConfig f) :
    ReadsConfig fun s => (f s).mapValue g := hf.andThen fun v => readsConfig_done (g v)

theorem decCode_readsConfig {w : Nat} (t : Config → Table w) (k : BitVec w) :
    ReadsConfig fun s => decCode (t s.cfg) k s := readsConfig_known _ fun c => (t c).dec k

theorem decInpmux_readsConfig (v : Byte) : ReadsConfig (decInpmux v) :=
  (decCode_readsConfig (·.pinTable) _).andThen fun _ => (decCode_readsConfig (·.pinTable) _).mapValue _

theorem decRef_readsConfig (v : Byte) : ReadsConfig (decRef v) :=
  (decCode_readsConfig (·.refPTable) _).andThen fun _ => (decCode_readsConfig (·.refNTable) _).mapValue _

theorem decMode0_readsConfig (v : Byte) : ReadsConfig (decMode0 v) :=
  (decCode_readsConfig (·.rateTable) _).andThen fun _ => (decCode_readsConfig (·.filterTable) _).mapValue _

theorem decMode1_readsConfig (v : Byte) : ReadsConfig (decMode1 v) :=
  (decCode_readsConfig (·.chopTable) _).andThen fun _ =>
    (decCode_readsConfig (·.convTable) _).andThen fun _ => (decCode_readsConfig (·.delayTable) _).mapValue _

end

section
variable {r : RegId} {dec : Byte → State → Res Value} {s : State} (hq : s.acq.resting = true)
include hq

/-- A failed exchange ends a getter before its decode (R97, R257). -/
theorem getter_of_fails (h : s.answer (2 + s.cfg.nDummy) = none) :
    getter r dec s = .next { s.afterXchg (frameRR s.cfg (s.cfg.regMap.addr r)) with
      response := some (.err .transportFailure) } := by
  simp [getter, hq, readRegister_of_fails h, respond_eq, toResponse]

/-- After an answered exchange a getter responds with the decode of byte 2 (R97). -/
theorem getter_of_reply {rx : List Byte} {v : Byte} (hdec : ReadsConfig (dec v))
    (h : s.answer (2 + s.cfg.nDummy) = some rx) (hv : rx[2]? = some v) :
    getter r dec s = .next { s.afterXchg (frameRR s.cfg (s.cfg.regMap.addr r)) with
      response := some (toResponse (dec v s).1) } := by
  have hcfg : (s.afterXchg (frameRR s.cfg (s.cfg.regMap.addr r))).cfg = s.cfg := rfl
  simp [getter, hq, readRegister_of_reply h hv, hdec s _ hcfg, respond_eq]

end

/-- Settles O16: the nine getters have one shape, a read and a decode that depends on the configuration alone. -/
theorem gettersAreReadThenDecode : Obligations.GettersAreReadThenDecode := by
  intro s rx v hq _
  refine ⟨fun o r hm h => ?_, fun h hv => ?_⟩
  · simp only [List.mem_cons, Prod.mk.injEq, List.not_mem_nil, or_false] at hm
    rcases hm with ⟨rfl, rfl⟩ | ⟨rfl, rfl⟩ | ⟨rfl, rfl⟩ | ⟨rfl, rfl⟩ | ⟨rfl, rfl⟩ | ⟨rfl, rfl⟩ | ⟨rfl, rfl⟩ |
      ⟨rfl, rfl⟩ | ⟨rfl, rfl⟩ <;> exact getter_of_fails hq h
  · exact ⟨getter_of_reply hq (decInpmux_readsConfig v) h hv, getter_of_reply hq (readsConfig_done _) h hv,
      getter_of_reply hq (decRef_readsConfig v) h hv, getter_of_reply hq (decMode0_readsConfig v) h hv,
      getter_of_reply hq (decMode1_readsConfig v) h hv, getter_of_reply hq (readsConfig_done _) h hv,
      getter_of_reply hq (readsConfig_done _) h hv, getter_of_reply hq (readsConfig_done _) h hv,
      getter_of_reply hq (readsConfig_done _) h hv⟩

end Sys2Proof.Machine
end

section
/-!
SUPPORT. The frame codec (40_frame_codec.md): a frame names its command (R111); what the builders (R100 to R106, R110)
and the parsers (R108, R109) answer; the mnemonics without a builder (R107); and the step that serves the host's next
operation (R18).
-/

namespace Sys2Proof.Machine

/-! ### Frames and commands (R111) -/

/-- Two commands with one frame are one command: the frame gives each of them back (R81). -/
theorem encode_injective {c : Config} (h : c.fixedLegal = true) (hd : c.opcodesDisjoint = true) :
    Function.Injective (encode c) := fun i j e =>
  Option.some.inj <| calc
    some i = decode c (encode c i) := (decode_encode h hd i).symm
    _ = decode c (encode c j) := by rw [e]
    _ = some j := decode_encode h hd j

/-- Settles O2: register frames are classified by their class bits and `RegAddr` is injective; a frame is the frame of
the command it decodes to (`encode_injective`). -/
theorem framesNameTheirCommand : Obligations.FramesNameTheirCommand := by
  intro c hl
  obtain ⟨-, -, hregs, hfixed, -⟩ := legal_parts hl
  refine ⟨fun r v => ⟨decode_frameRR hfixed _, decode_frameWR hfixed _ v, rfl, ?_⟩, fun hd i j e => ?_⟩
  · exact (regAt_eq_some_iff hregs _ r).mpr rfl
  · exact encode_injective hfixed hd e

/-! ### The parsers (R108, R109) -/

section
variable {s : State} {rx : List Byte}

theorem parseRreg_of_short (h : rx.length < 3) : execOp (.parseRreg rx) s = .refused .arrayTooShort := if_pos h

theorem parseRreg_of_byte {v : Byte} (h : rx[2]? = some v) :
    execOp (.parseRreg rx) s = .next (s.responding (.ok (.byte v))) := by
  have hlen : ¬ rx.length < 3 := Nat.not_lt.mpr (List.getElem?_eq_some_iff.mp h).1
  rw [← replyByte_eq h]
  exact if_neg hlen

/-- The four layouts in the order of their two bits (R84). -/
theorem sampleOffset_eq (c : Config) (statenb crcenb : Bool) : sampleOffset c statenb crcenb =
    if crcenb then (if statenb then c.offBoth else c.offCrcOnly) else (if statenb then 3 else 2) := by
  cases statenb <;> cases crcenb <;> rfl

/-- The sample is big-endian (R55). -/
theorem sampleAt_toNat {o : Nat} {x y z : Byte} (hx : rx[o]? = some x) (hy : rx[o + 1]? = some y)
    (hz : rx[o + 2]? = some z) : (sampleAt rx o).toNat = x.toNat * 65536 + y.toNat * 256 + z.toNat := by
  rw [sampleAt, replyByte_eq hx, replyByte_eq hy, replyByte_eq hz, sample_toNat]

/-- The status byte is a byte of the reply wherever the sample begins inside it (R109). -/
theorem statusAt_eq {o : Nat} (h : o < rx.length) (statenb : Bool) :
    statusAt rx statenb o = if statenb then rx[o - 1]? else none := by
  rw [statusAt, getElem?_replyByte ((Nat.sub_le o 1).trans_lt h)]

variable {statenb crcenb : Bool}

theorem parseRdata_of_short (h : rx.length < sampleOffset s.cfg statenb crcenb + 3) :
    execOp (.parseRdata rx statenb crcenb) s = .refused .arrayTooShort := if_pos h

theorem parseRdata_of_long (h : ¬ rx.length < sampleOffset s.cfg statenb crcenb + 3) :
    execOp (.parseRdata rx statenb crcenb) s = .next (s.responding (.ok (.sample
      (statusAt rx statenb (sampleOffset s.cfg statenb crcenb))
      (sampleAt rx (sampleOffset s.cfg statenb crcenb))))) := if_neg h

end

/-- Settles O9: the length decides between refusal and answer; the answer's two parts are read at the layout's offset
(`sampleAt_toNat`, `statusAt_eq`). -/
theorem parseRdataTakesTheLayoutsBytes : Obligations.ParseRdataTakesTheLayoutsBytes := by
  intro s rx statenb crcenb o ho
  rw [← sampleOffset_eq] at ho
  subst ho
  refine ⟨parseRdata_of_short, fun x y z hx hy hz => ⟨_, _, sampleAt_toNat hx hy hz, statusAt_eq ?_ statenb, ?_⟩⟩
  · exact (List.getElem?_eq_some_iff.mp hx).1
  · have hlast := (List.getElem?_eq_some_iff.mp hz).1
    exact parseRdata_of_long (by omega)

/-- Settles O8: byte 2 is there exactly where the array is long enough. -/
theorem parseRregTakesByteTwo : Obligations.ParseRregTakesByteTwo :=
  fun _ _ => ⟨parseRreg_of_short, fun _ => parseRreg_of_byte⟩

/-! ### The builders (R100 to R106, R110) -/

/-- Settles O4: each builder responds with the frame of its opcode, which a legal configuration fixes
(`legal_frames`). -/
theorem constantBuildersReturnTheirFrames : Obligations.ConstantBuildersReturnTheirFrames := by
  intro s hl
  obtain ⟨hstart, hstop, hrdata, hsyocal, hsfocal⟩ := legal_frames hl
  rw [← hstart, ← hstop, ← hrdata, ← hsyocal, ← hsfocal]
  exact ⟨rfl, rfl, rfl, rfl, rfl⟩

/-- The RREG frame of a legal configuration (R100). -/
theorem frameRR_of_legal {c : Config} (h : c.legal = true) (a : Addr) :
    frameRR c a = [0x20 + a.setWidth 8, 0x10] ++ List.replicate c.nDummy 0x00 := by
  obtain ⟨hop, -⟩ := legal_fixed h
  rw [frameRR, hop, arb]

/-- The WREG frame of a legal configuration (R101). -/
theorem frameWR_of_legal {c : Config} (h : c.legal = true) (a : Addr) (v : Byte) :
    frameWR c a v = [0x40 + a.setWidth 8, v, 0x00, 0x00, 0x00] := by
  obtain ⟨-, hop, -⟩ := legal_fixed h
  rw [frameWR, hop]

/-- An operation on a register operand responds with the value for the register named (R252). -/
theorem respond_regOperand_name (r : RegId) (f : RegId → Value) (s : State) :
    respond ((regOperand r.name s).mapValue f) = .next (s.responding (.ok (f r))) := by
  rw [regOperand, ofName_name]
  rfl

/-- At a name outside `RegId` it responds with the name (R252). -/
theorem respond_regOperand_of_unknown {n : Ident} (h : RegId.ofName n = none) (f : RegId → Value) (s : State) :
    respond ((regOperand n s).mapValue f) = .next (s.responding (.err (.unknownIdentifier (.name n)))) := by
  rw [regOperand, h]
  rfl

/-- Settles O5: the operand is looked up first; a register's frame is that of its address in a legal configuration. -/
theorem registerBuildersReturnTheirFrames : Obligations.RegisterBuildersReturnTheirFrames := by
  intro s v hl
  refine ⟨?_, fun n hn => ⟨respond_regOperand_of_unknown hn _ s, respond_regOperand_of_unknown hn _ s⟩⟩
  rintro r _ _ rfl rfl
  rw [← frameRR_of_legal hl, ← frameWR_of_legal hl]
  exact ⟨respond_regOperand_name r _ s, respond_regOperand_name r _ s⟩

/-- Settles O6: the wire mnemonic is its builder (log entry 7), which responds with the frame of OP_RESET. -/
theorem resetOnlyBuildsItsFrame : Obligations.ResetOnlyBuildsItsFrame := fun _ => ⟨rfl, rfl⟩

/-- Settles O7: the meaning of each of the four is its refusal (R107). -/
theorem mnemonicsWithoutBuilderAreRefused : Obligations.MnemonicsWithoutBuilderAreRefused :=
  fun _ => ⟨rfl, rfl, rfl, rfl⟩

/-! ### The step (R18, R280) -/

section
variable {s : State}

theorem step_of_illegal (h : s.cfg.legal = false) : step s = .refused .illegalConfiguration := by simp [step, h]

theorem step_of_no_request (hl : s.cfg.legal = true) (h : s.inbox = []) : step s = .next s := by simp [step, hl, h]

/-- The next request is taken and served. -/
theorem step_of_request {r : Request} {rest : List Request} (hl : s.cfg.legal = true) (h : s.inbox = r :: rest) :
    step s = serve r (s.taking rest) := by simp [step, hl, h, State.taking]

end

/-- Settles O55: the three cases of a step; an operation is served by its meaning. -/
theorem stepServesTheHost : Obligations.StepServesTheHost :=
  fun _ => ⟨step_of_illegal, step_of_no_request, fun _ _ => step_of_request⟩

end Sys2Proof.Machine
end

section
/-!
SUPPORT. The field codecs (41_field_codecs.md): encoder and decoder of a pair undo each other (R155), because each
table is injective both ways (R130) and each byte holds its fields side by side (R77); and what the ENC_* and DEC_*
host operations answer (R133 to R152).
-/

namespace Sys2Proof.Machine

/-! ### The byte assembled from its fields (R77, R88) -/

theorem inpmuxByte_of_fields : ∀ v : Byte, inpmuxByte (field v 4 4) (field v 0 4) = v := by decide

theorem pgaByte_of_fields : ∀ v : Byte, field v 3 4 = 0#4 → pgaByte (v.getLsbD 7) (field v 0 3) = v := by decide

/-- ENC_PGA leaves bits 6:3 zero. -/
theorem pgaByte_undescribed : ∀ (b : Bool) (k : BitVec 3), field (pgaByte b k) 3 4 = 0#4 := by decide

theorem mode0Byte_of_fields : ∀ v : Byte, mode0Byte (field v 3 5) (field v 0 3) = v := by decide

theorem mode1Byte_of_fields : ∀ v : Byte, v.getLsbD 7 = false →
    mode1Byte (field v 5 2) (field v 4 1) (field v 0 4) = v := by decide

theorem refByte_of_fields : ∀ v : Byte, field v 5 3 = 0#3 →
    refByte (v.getLsbD 4) (field v 2 2) (field v 0 2) = v := by decide

theorem mode3Flags_mode3Byte (f : Mode3Flags) : mode3Flags (mode3Byte f) = f := by
  obtain ⟨pwdn, statenb, crcenb, spitim, gpio3, gpio2, gpio1, gpio0⟩ := f
  revert pwdn statenb crcenb spitim gpio3 gpio2 gpio1 gpio0
  decide

theorem mode3Byte_mode3Flags : ∀ v : Byte, mode3Byte (mode3Flags v) = v := by decide

/-! ### The decoders by the codes of their tables (R130) -/

/-- In a legal table the name of a code is the name with that code. -/
theorem table_dec_iff_enc {w : Nat} {t : Table w} (h : t.legal = true) {n : Ident} {c : BitVec w} :
    Table.dec t c = some n ↔ Table.enc t n = some c := (table_dec_iff h n c).trans (table_enc_iff h n c).symm

theorem decPga_eq_ok {s : State} {v : Byte} {b : Bool} {g : Nat} : decPga v s = (.ok (.pga b g), s) ↔
    v.getLsbD 7 = b ∧ gainOfCode (field v 0 3) = g := by simp [decPga, done]

section
variable {s : State} {v : Byte} {a b d : Ident} (hl : s.cfg.legal = true)
include hl

theorem decInpmux_eq_ok : decInpmux v s = (.ok (.inputPair a b), s) ↔
    Table.enc s.cfg.pinTable a = some (field v 4 4) ∧ Table.enc s.cfg.pinTable b = some (field v 0 4) := by
  obtain ⟨hpin, -⟩ := legal_tables hl
  simp [decInpmux, decCode, known_andThen_eq_ok, known_mapValue_eq_ok, table_dec_iff_enc hpin]

theorem decMode0_eq_ok : decMode0 v s = (.ok (.mode0 a b), s) ↔
    Table.enc s.cfg.rateTable a = some (field v 3 5) ∧ Table.enc s.cfg.filterTable b = some (field v 0 3) := by
  obtain ⟨-, hrate, hfilter, -⟩ := legal_tables hl
  simp [decMode0, decCode, known_andThen_eq_ok, known_mapValue_eq_ok, table_dec_iff_enc hrate,
    table_dec_iff_enc hfilter]

theorem decMode1_eq_ok : decMode1 v s = (.ok (.mode1 a b d), s) ↔
    Table.enc s.cfg.chopTable a = some (field v 5 2) ∧ Table.enc s.cfg.convTable b = some (field v 4 1) ∧
      Table.enc s.cfg.delayTable d = some (field v 0 4) := by
  obtain ⟨-, -, -, hchop, hconv, hdelay, -⟩ := legal_tables hl
  simp [decMode1, decCode, known_andThen_eq_ok, known_mapValue_eq_ok, table_dec_iff_enc hchop,
    table_dec_iff_enc hconv, table_dec_iff_enc hdelay]

theorem decRef_eq_ok {e : Bool} : decRef v s = (.ok (.reference e a b), s) ↔
    Table.enc s.cfg.refPTable a = some (field v 2 2) ∧ Table.enc s.cfg.refNTable b = some (field v 0 2) ∧
      v.getLsbD 4 = e := by
  obtain ⟨-, -, -, -, -, -, hpos, hneg⟩ := legal_tables hl
  simp [decRef, decCode, known_andThen_eq_ok, known_mapValue_eq_ok, table_dec_iff_enc hpos, table_dec_iff_enc hneg]

end

/-! ### The round trips (R155) -/

/-- Settles O10: the encoder looked each option up, and the decoder finds that code again in its field of the byte. -/
theorem decodeOfEncodedFieldsGivesTheOptions : Obligations.DecodeOfEncodedFieldsGivesTheOptions := by
  intro s hl
  refine ⟨fun pos neg v h => ?inpmux, fun b g v h => ?pga, fun rate filter v h => ?mode0,
    fun chop conv delay v h => ?mode1, fun e pos neg v h => ?ref, mode3Flags_mode3Byte⟩
  case inpmux =>
    obtain ⟨p, n, hp, hn, rfl⟩ := encInpmux_eq_ok.mp h
    exact (decInpmux_eq_ok hl).mpr (by simpa only [inpmuxByte_fields] using ⟨hp, hn⟩)
  case pga =>
    obtain ⟨k, hk, rfl⟩ := encPga_eq_ok.mp h
    exact decPga_eq_ok.mpr (by simpa only [pgaByte_fields, true_and] using hk)
  case mode0 =>
    obtain ⟨d, f, hd, hf, rfl⟩ := encMode0_eq_ok.mp h
    exact (decMode0_eq_ok hl).mpr (by simpa only [mode0Byte_fields] using ⟨hd, hf⟩)
  case mode1 =>
    obtain ⟨c, t, d, hc, ht, hd, rfl⟩ := encMode1_eq_ok.mp h
    exact (decMode1_eq_ok hl).mpr (by simpa only [mode1Byte_fields] using ⟨hc, ht, hd⟩)
  case ref =>
    obtain ⟨p, n, hp, hn, rfl⟩ := encRef_eq_ok.mp h
    exact (decRef_eq_ok hl).mpr (by simpa only [refByte_fields, and_true] using ⟨hp, hn⟩)

/-- Settles O11: the encoder finds the code of each decoded name, and the byte is that of its fields; every byte of
ENC_PGA has bits 6:3 zero, which 0x7F has not. -/
theorem encodeOfDecodedByteGivesTheByte : Obligations.EncodeOfDecodedByteGivesTheByte := by
  intro s hl
  refine ⟨fun v p n h => ?inpmux, fun v b g h hz => ?pga, fun v a b h => ?mode0, fun v a b d h hz => ?mode1,
    fun v e p n h hz => ?ref, mode3Byte_mode3Flags, fun b g _ h => ?pga7F⟩
  case inpmux =>
    obtain ⟨hp, hn⟩ := (decInpmux_eq_ok hl).mp h
    exact encInpmux_eq_ok.mpr ⟨_, _, hp, hn, inpmuxByte_of_fields v⟩
  case pga =>
    obtain ⟨rfl, hg⟩ := decPga_eq_ok.mp h
    exact encPga_eq_ok.mpr ⟨_, hg, pgaByte_of_fields v hz⟩
  case mode0 =>
    obtain ⟨ha, hb⟩ := (decMode0_eq_ok hl).mp h
    exact encMode0_eq_ok.mpr ⟨_, _, ha, hb, mode0Byte_of_fields v⟩
  case mode1 =>
    obtain ⟨ha, hb, hd⟩ := (decMode1_eq_ok hl).mp h
    exact encMode1_eq_ok.mpr ⟨_, _, _, ha, hb, hd, mode1Byte_of_fields v hz⟩
  case ref =>
    obtain ⟨hp, hn, rfl⟩ := (decRef_eq_ok hl).mp h
    exact encRef_eq_ok.mpr ⟨_, _, hp, hn, refByte_of_fields v hz⟩
  case pga7F =>
    obtain ⟨k, -, hk⟩ := encPga_eq_ok.mp h
    have hzero : field 0x7F 3 4 = 0#4 := hk ▸ pgaByte_undescribed b k
    exact absurd hzero (by decide)

/-! ### The host operations -/

/-- An ENC_* operation whose encoder gives a byte responds with it. -/
theorem respond_mapValue_byte {r : Res Byte} {v : Byte} {s : State} (h : r = (.ok v, s)) :
    respond (r.mapValue .byte) = .next (s.responding (.ok (.byte v))) := by
  rw [h]
  rfl

/-- A result that leaves the state alone is responded and nothing else. -/
theorem respond_of_snd_eq {r : Res Value} {s : State} (h : r.2 = s) :
    respond r = .next (s.responding (toResponse r.1)) := by
  rw [respond_eq, h]
  rfl

/-- Settles O60: each encoder's byte and each decoder's result is responded; the flags are the bits of the byte. -/
theorem fieldOperationsAnswerByTheirFunctions : Obligations.FieldOperationsAnswerByTheirFunctions := fun s v =>
  ⟨fun _ _ => respond_mapValue_byte, fun _ _ => respond_mapValue_byte, fun _ _ => respond_mapValue_byte,
    fun _ _ _ => respond_mapValue_byte, fun _ _ _ => respond_mapValue_byte, fun _ => rfl,
    respond_of_snd_eq (decInpmux_snd v s), respond_of_snd_eq (decMode0_snd v s),
    respond_of_snd_eq (decMode1_snd v s), respond_of_snd_eq (decRef_snd v s), rfl, rfl,
    ⟨_, rfl, rfl, rfl, rfl, rfl, rfl, rfl, rfl, rfl, rfl⟩, ⟨_, rfl, rfl, rfl, rfl, rfl, rfl, rfl, rfl, rfl, rfl⟩⟩

end Sys2Proof.Machine
end

section
/-!
SUPPORT. Register access by name (42_register_access.md): READ_REGISTER (R170) and WRITE_REGISTER (R172) outcome by
outcome, and that a shadow changes only by the block's reset or by a confirmed write (R191).
-/

namespace Sys2Proof.Machine

section
variable {r : RegId} {v : Byte} {s t : State}

/-! ### The named operations past their operand -/

section
variable (hq : s.acq.resting = true)
include hq

theorem execOp_readRegister_name (r : RegId) :
    execOp (.readRegister r.name) s = respond ((readRegister r s).mapValue .byte) := by
  simp [execOp, opReadRegister, hq, regOperand]

theorem execOp_writeRegister_name (r : RegId) (v : Byte) :
    execOp (.writeRegister r.name v) s = respond ((writeRegister r v s).mapValue fun _ => .unit) := by
  simp [execOp, opWriteRegister, hq, regOperand]

variable {n : Ident} (h : RegId.ofName n = none)
include h

theorem execOp_readRegister_of_unknown :
    execOp (.readRegister n) s = .next (s.responding (.err (.unknownIdentifier (.name n)))) := by
  simp [execOp, opReadRegister, hq, regOperand, h, respond_eq, toResponse, State.responding]

theorem execOp_writeRegister_of_unknown (v : Byte) :
    execOp (.writeRegister n v) s = .next (s.responding (.err (.unknownIdentifier (.name n)))) := by
  simp [execOp, opWriteRegister, hq, regOperand, h, respond_eq, toResponse, State.responding]

end

/-! ### The cycle after an answered write -/

section
variable {rx : List Byte} (hw : s.answer 5 = some rx)
include hw

/-- A failed verify read ends the cycle before the comparison (R172). -/
theorem writeRegister_of_read_fails
    (hf : (s.afterXchg (frameWR s.cfg (s.cfg.regMap.addr r) v)).answer (2 + s.cfg.nDummy) = none) :
    writeRegister r v s = (.error .transportFailure,
      (s.afterXchg (frameWR s.cfg (s.cfg.regMap.addr r) v)).afterXchg (frameRR s.cfg (s.cfg.regMap.addr r))) := by
  rw [writeRegister_of_write_answered hw, readRegister_of_fails hf]
  rfl

/-- With both exchanges answered the cycle is its comparison (R172). -/
theorem writeRegister_of_read_answered {rx' : List Byte} {got : Byte}
    (hr : (s.afterXchg (frameWR s.cfg (s.cfg.regMap.addr r) v)).answer (2 + s.cfg.nDummy) = some rx')
    (hgot : rx'[2]? = some got) : writeRegister r v s = verify r v got
      ((s.afterXchg (frameWR s.cfg (s.cfg.regMap.addr r) v)).afterXchg (frameRR s.cfg (s.cfg.regMap.addr r))) := by
  rw [writeRegister_of_write_answered hw, readRegister_of_reply hr hgot]
  rfl

end

/-! ### Confirmed writes -/

/-- From `s` to `t` a write of `q` was confirmed: the response is `Ok`, the events are the answered WREG exchange and
the RREG exchange that reads the value back, and the shadow holds it (R172, R191). -/
def ConfirmedWrite (s t : State) (q : RegId) : Prop :=
  ∃ (v : Byte) (rx0 rx : List Byte), t.sh.get q = some v ∧ t.response = some (.ok .unit) ∧
    newEvents s t = [.xchg (frameWR s.cfg (s.cfg.regMap.addr q) v) (some rx0),
      .xchg (frameRR s.cfg (s.cfg.regMap.addr q)) (some rx)] ∧ rx[2]? = some v

/-- Only the register's own shadow changes by a commit, and only if it has one (R172). -/
theorem eq_and_shadowed_of_get_set_ne {sh : Shadows} {q : RegId} (h : (sh.set r v).get q ≠ sh.get q) :
    q = r ∧ shadowed r = true := by
  refine ⟨?_, ?_⟩
  · by_contra hqr
    exact h (shadows_get_set_other sh r q v hqr)
  · by_contra hr
    exact h (by rw [shadows_set_unshadowed sh r v (by simpa using hr)])

/-- The verify read of a configuration with a dummy byte has the value byte in its reply (R52). -/
theorem answer_byte_two {rx : List Byte} (hd : 1 ≤ s.cfg.nDummy) (h : t.answer (2 + s.cfg.nDummy) = some rx) :
    rx[2]? = some (replyByte rx 2) :=
  getElem?_replyByte (by have := answer_length h; omega)

variable {q : RegId} (hl : s.cfg.legal = true) (hne : t.sh.get q ≠ s.sh.get q)
include hl hne

/-- Of the ends of the cycle only the match writes a shadow. -/
theorem WriteRun.confirmedWrite {w : Option RegId} (h : WriteRun w s t) : ConfirmedWrite s t q := by
  cases h with
  | unknown | writeFails | readFails | status | mismatch => exact absurd rfl hne
  | verified r v rx rx' _ hw hr hv =>
    obtain ⟨rfl, hsh⟩ := eq_and_shadowed_of_get_set_ne hne
    refine ⟨v, rx, rx', shadows_get_set_self s.sh q v hsh, rfl, newEvents_of_history ?_, ?_⟩
    · simp [State.responding, hw, hr]
    · exact hv ▸ answer_byte_two (legal_nDummy hl) hr

theorem OpRun.confirmedWrite {o : HostOp} (h : OpRun s o t) : ConfirmedWrite s t q := by
  rcases h.sameRegs_or with h | h | ⟨-, rfl⟩
  · exact absurd (by rw [h.sh]) hne
  · exact h.confirmedWrite hl hne
  · exact absurd rfl hne

theorem ExecRun.confirmedWrite {i : Instr} (h : ExecRun s t i) : ConfirmedWrite s t q := by
  cases h with
  | reset h => exact absurd (by rw [h]; rfl) hne
  | start e | stop e | rdata e | syocal e | sfocal e => exact (execOp_runs e).confirmedWrite hl hne
  | rreg _ h => exact absurd (by rw [h.sh]) hne
  | wreg _ _ h => exact h.confirmedWrite hl hne

end

/-! ### The obligations -/

/-- Settles O17: the operand is looked up first; a register's read is one exchange, answered or failed. -/
theorem readRegisterReturnsByteTwo : Obligations.ReadRegisterReturnsByteTwo := by
  intro s hq _
  refine ⟨fun r rx v hrx hv => ?_, fun r hf => ?_, fun n hn => execOp_readRegister_of_unknown hq hn⟩
  · rw [execOp_readRegister_name hq, readRegister_of_reply hrx hv]
    rfl
  · rw [execOp_readRegister_name hq, readRegister_of_fails hf]
    rfl

/-- Settles O19: the cycle by the outcomes of its two exchanges and of the comparison. -/
theorem writeRegisterVerifiesItsWrite : Obligations.WriteRegisterVerifiesItsWrite := by
  intro s v hq _
  refine ⟨fun n hn => execOp_writeRegister_of_unknown hq hn v, ?_⟩
  rintro r _ _ rfl rfl
  rw [execOp_writeRegister_name hq]
  refine ⟨fun hf => ?writeFails, fun rx hw => ⟨fun hf => ?readFails, fun rx' got hr hgot => ?compared⟩⟩
  case writeFails =>
    rw [writeRegister_of_write_fails hf]
    rfl
  case readFails =>
    rw [writeRegister_of_read_fails hw hf]
    rfl
  case compared =>
    rw [writeRegister_of_read_answered hw hr hgot]
    refine ⟨?_, ?_, fun hne hst => ?_⟩
    · rintro rfl
      rw [verify_of_eq]
      exact ⟨_, rfl, rfl, committed_of_sh rfl⟩
    · rintro hne rfl
      rw [verify_status_of_ne hne]
      rfl
    · rw [verify_of_ne hne hst]
      rfl

/-- Settles O59: the block's reset empties every shadow; any other step runs an operation or a wire command, which
changes a shadow only by a confirmed write. -/
theorem shadowsChangeOnlyByAVerifiedWrite : Obligations.ShadowsChangeOnlyByAVerifiedWrite := by
  intro s t q e hne
  obtain ⟨hl, h⟩ := step_runs e
  cases h with
  | waits => exact absurd rfl hne
  | op _ rest _ _ e => exact .inr ((execOp_runs e).confirmedWrite (s := s.taking rest) hl hne)
  | frame _ _ rest _ _ _ e => exact .inr ((exec_runs e).confirmedWrite (s := s.taking rest) hl hne)
  | blockReset rest hi => exact .inl ⟨shadows_get_empty q, rest, .inl hi⟩
  | resetBefore o n rest hi | resetDuring o n rest _ hi =>
    exact .inl ⟨shadows_get_empty q, rest, .inr ⟨o, n, hi⟩⟩

end Sys2Proof.Machine
end

section
/-!
SUPPORT. The converter (43_conversion.md): the signed reading and its range, the millivolts as one quotient (R200,
R203), their monotonicity (R202), and RAW24_TO_MV by its gain operand.
-/

namespace Sys2Proof.Machine

section
variable {m g : Nat} {raw raw' : Sample}

/-! ### The signed reading (R12) -/

theorem s24_of_lt (h : raw.toNat < 2 ^ 23) : s24 raw = raw.toNat := if_pos h

theorem s24_of_ge (h : 2 ^ 23 ≤ raw.toNat) : s24 raw = raw.toNat - 2 ^ 24 := if_neg (Nat.not_lt.mpr h)

theorem s24_zero : s24 0 = 0 := s24_of_lt (by decide)

theorem s24_natAbs_le (raw : Sample) : (s24 raw).natAbs ≤ 2 ^ 23 := by
  have hlt := raw.isLt
  rcases Nat.lt_or_ge raw.toNat (2 ^ 23) with h | h
  · rw [s24_of_lt h]
    omega
  · rw [s24_of_ge h]
    omega

/-- The sign of a sample is the top bit of its first byte, so R200 tests that byte against 127. -/
theorem s24_append (x y z : Byte) : s24 (x ++ y ++ z) =
    if x.toNat > 127 then -(2 ^ 24 - ((x.toNat * 65536 + y.toNat * 256 + z.toNat : Nat) : Int))
    else ((x.toNat * 65536 + y.toNat * 256 + z.toNat : Nat) : Int) := by
  have hy := y.isLt
  have hz := z.isLt
  split
  case isTrue hneg => rw [s24_of_ge (by rw [sample_toNat]; omega), sample_toNat, Int.neg_sub]
  case isFalse hpos => rw [s24_of_lt (by rw [sample_toNat]; omega), sample_toNat]

/-! ### The gains -/

/-- The gains of R135 are the powers of two up to 128. -/
theorem gain_eq_two_pow (h : g ∈ [1, 2, 4, 8, 16, 32, 64, 128]) : ∃ e ≤ 7, g = 2 ^ e := by
  obtain ⟨k, hk⟩ := Option.isSome_iff_exists.mp ((gainCode_isSome_iff g).mpr h)
  exact ⟨k.toNat, Nat.le_of_lt_succ k.isLt, (gainOfCode_of_gainCode hk).symm⟩

theorem gain_pos (h : g ∈ [1, 2, 4, 8, 16, 32, 64, 128]) : (0 : Rat) < g := by
  obtain ⟨e, -, rfl⟩ := gain_eq_two_pow h
  positivity

/-! ### The millivolts -/

/-- R203: one exact division. -/
theorem millivolts_eq_div (raw : Sample) (m g : Nat) :
    millivolts raw m g = (s24 raw : Rat) * m / (g * 2 ^ 23) := by
  rw [millivolts, Rat.mkRat_eq_div]
  push_cast
  rfl

theorem millivolts_zero (m g : Nat) : millivolts 0 m g = 0 := by
  rw [millivolts_eq_div, s24_zero]
  simp

/-- R202: the denominator and the reference are positive, so the quotient grows with the signed reading. -/
theorem millivolts_lt (hg : (0 : Rat) < g) (hm : 0 < m) (h : s24 raw < s24 raw') :
    millivolts raw m g < millivolts raw' m g := by
  have hm' : (0 : Rat) < m := Nat.cast_pos.mpr hm
  have hs : (s24 raw : Rat) < s24 raw' := Int.cast_lt.mpr h
  rw [millivolts_eq_div, millivolts_eq_div]
  exact div_lt_div_of_pos_right (mul_lt_mul_of_pos_right hs hm') (by positivity)

/-! ### RAW24_TO_MV by its gain operand -/

section
variable {s : State} (hm : m < 2 ^ s.cfg.refW) (x y z : Byte)
include hm

theorem execOp_raw24ToMv : execOp (.raw24ToMv x y z m g) s = respond (raw24ToMv (x ++ y ++ z) m g s) :=
  if_pos (decide_eq_true hm)

theorem execOp_raw24ToMv_of_gain (hg : g ∈ [1, 2, 4, 8, 16, 32, 64, 128]) : execOp (.raw24ToMv x y z m g) s =
    .next (s.responding (.ok (.millivolts (millivolts (x ++ y ++ z) m g)))) := by
  obtain ⟨k, hk⟩ := Option.isSome_iff_exists.mp ((gainCode_isSome_iff g).mpr hg)
  rw [execOp_raw24ToMv hm, raw24ToMv, gainOperand, hk]
  rfl

theorem execOp_raw24ToMv_of_no_gain (hg : g ∉ [1, 2, 4, 8, 16, 32, 64, 128]) : execOp (.raw24ToMv x y z m g) s =
    .next (s.responding (.err (.unknownIdentifier (.number g)))) := by
  rw [execOp_raw24ToMv hm, raw24ToMv, gainOperand, (gainCode_none_iff g).mpr hg]
  rfl

end

end

/-! ### The obligations -/

/-- Settles O29: RAW24_TO_MV responds with `millivolts`, a quotient by a divisor that a gain of the table keeps from
zero; the two readings of the bytes agree (`s24_append`). -/
theorem converterReturnsTheExactQuotient : Obligations.ConverterReturnsTheExactQuotient := by
  rintro s x y z m g _ _ hm rfl rfl
  refine ⟨fun hg => ⟨_, ?_, execOp_raw24ToMv_of_gain hm x y z hg⟩, execOp_raw24ToMv_of_no_gain hm x y z⟩
  have hpos := gain_pos hg
  rw [← s24_append, millivolts_eq_div, div_mul_cancel₀ _ (by positivity)]

/-- Settles O30: the two signs are the monotonicity (`millivolts_lt`) on either side of sample 0. -/
theorem converterIsStrictlyIncreasing : Obligations.ConverterIsStrictlyIncreasing := by
  intro m g hg
  refine ⟨millivolts_zero m g, fun raw => by simp [millivolts_eq_div], by decide,
    fun hm => ⟨fun raw hpos hle => ?positive, fun raw hge => ?negative, fun _ _ => millivolts_lt (gain_pos hg) hm⟩⟩
  case positive =>
    have hs : s24 0 < s24 raw := by
      rw [s24_zero, s24_of_lt (by omega)]
      omega
    exact millivolts_zero m g ▸ millivolts_lt (gain_pos hg) hm hs
  case negative =>
    have hlt := raw.isLt
    have hs : s24 raw < s24 0 := by
      rw [s24_zero, s24_of_ge hge]
      omega
    exact millivolts_zero m g ▸ millivolts_lt (gain_pos hg) hm hs

/-- Settles O31: the end codes read as -2^23 and 2^23 - 1, over the denominator `gain * 2^23`. -/
theorem converterFullScaleIsTwoToTheTwentyThree : Obligations.ConverterFullScaleIsTwoToTheTwentyThree := by
  intro m g hg
  have hpos := gain_pos hg
  have hmin : s24 0x800000 = -2 ^ 23 := by decide
  have hmax : s24 0x7FFFFF = 2 ^ 23 - 1 := by decide
  rw [millivolts_eq_div, millivolts_eq_div, hmin, hmax]
  push_cast
  constructor
  · field_simp
    ring
  · field_simp
    ring

/-- Settles O32: a gain is `2 ^ e` with `e ≤ 7`, so the quotient over `2 ^ (e + 23)` is one over `2 ^ 30`. -/
theorem converterResultsAreDyadic : Obligations.ConverterResultsAreDyadic := by
  intro raw m g hm hg
  constructor
  · calc (s24 raw * (m : Int)).natAbs
        = (s24 raw).natAbs * m := by rw [Int.natAbs_mul, Int.natAbs_natCast]
      _ ≤ 2 ^ 23 * m := Nat.mul_le_mul_right m (s24_natAbs_le raw)
      _ < 2 ^ 39 := by omega
  · obtain ⟨e, he, rfl⟩ := gain_eq_two_pow hg
    have h7 : (2 : Rat) ^ (7 - e) * 2 ^ e = 2 ^ 7 := by rw [← pow_add, Nat.sub_add_cancel he]
    refine ⟨s24 raw * m * 2 ^ (7 - e), ?_⟩
    rw [millivolts_eq_div, div_eq_div_iff (by positivity) (by positivity)]
    push_cast
    linear_combination -(s24 raw : Rat) * m * 2 ^ 23 * h7

end Sys2Proof.Machine
end

section
/-!
SUPPORT. The acquisition sequencer and device control (44_acquisition.md): each phase by the environment's answer; the
two wait loops on listed answers (R212, R213); COLLECT_MEASUREMENT from its phases (R216, R225); and the moves of `ACQ`
over every step (R224).
-/

namespace Sys2Proof.Machine

/-! ### Acceptance -/

theorem resting_iff (a : Acq) : a.resting = true ↔ a = .idle ∨ a = .fault := by cases a <;> decide

theorem resting_of_ne {a : Acq} (hi : a ≠ .idle) (hf : a ≠ .fault) : a.resting = false :=
  Bool.eq_false_iff.mpr fun h => ((resting_iff a).mp h).elim hi hf

section
variable {s : State}

section
variable (hq : s.acq.resting = true)
include hq

theorem exec_start_of_resting : exec .start s = respond ((arm s).mapValue fun _ => .unit) := by
  simp [exec, execStart, opArm, hq]

theorem exec_stop_of_resting : exec .stop s = respond ((stop s).mapValue fun _ => .unit) := by
  simp [exec, execStop, opStop, hq]

theorem exec_sfocal_of_resting : exec .sfocal s = respond ((calibrate s.cfg.opSfocal s).mapValue fun _ => .unit) := by
  simp [exec, execSfocal, opCalibrateSelf, hq]

theorem exec_syocal_of_resting : exec .syocal s = respond ((calibrate s.cfg.opSyocal s).mapValue fun _ => .unit) := by
  simp [exec, execSyocal, opCalibrateSystem, hq]

theorem execOp_resetPulse_of_resting : execOp .resetPulse s = .next ((resetPulse s).responding (.ok .unit)) := by
  simp [execOp, opResetPulse, hq, respond_eq, done, toResponse, State.responding]

end

section
variable (hq : s.acq.resting = false)
include hq

theorem exec_start_refused : exec .start s = .refused .notAccepted := by simp [exec, execStart, opArm, hq]

theorem exec_stop_refused : exec .stop s = .refused .notAccepted := by simp [exec, execStop, opStop, hq]

theorem exec_sfocal_refused : exec .sfocal s = .refused .notAccepted := by
  simp [exec, execSfocal, opCalibrateSelf, hq]

theorem exec_syocal_refused : exec .syocal s = .refused .notAccepted := by
  simp [exec, execSyocal, opCalibrateSystem, hq]

theorem execOp_resetPulse_refused : execOp .resetPulse s = .refused .notAccepted := by
  simp [execOp, opResetPulse, hq]

end

/-! ### The phases by the environment's answer -/

/-- The state in which the START exchange, answered, leaves the block (R210). -/
def State.afterStart (s : State) : State := leaveTo .armed (s.afterXchg (frameC3 s.cfg.opStart))

@[simp] theorem afterStart_cfg (s : State) : s.afterStart.cfg = s.cfg := rfl
@[simp] theorem afterStart_samples (s : State) : s.afterStart.samples = s.samples := rfl
@[simp] theorem afterStart_history (s : State) :
    s.afterStart.history = s.history ++ [.xchg (frameC3 s.cfg.opStart) (s.answer 3)] := rfl

theorem arm_of_reply {rx : List Byte} (h : s.answer 3 = some rx) : arm s = (.ok (), s.afterStart) := by
  rw [arm, exchange_some (tx := frameC3 s.cfg.opStart) h]
  rfl

theorem arm_of_fails (h : s.answer 3 = none) :
    arm s = (.error .transportFailure, (s.afterXchg (frameC3 s.cfg.opStart)).setAcq .fault) := by
  rw [arm, exchange_none (tx := frameC3 s.cfg.opStart) h]
  rfl

theorem readData_of_reply {rx : List Byte} (h : s.answer 9 = some rx) :
    readData s = (.ok (parseRdata s.cfg rx s.layout.1 s.layout.2),
      leaveTo .dataAvailable (s.afterXchg (frameRD s.cfg))) := by
  rw [readData, exchange_some (tx := frameRD s.cfg) h]
  rfl

theorem readData_of_fails (h : s.answer 9 = none) :
    readData s = (.error .transportFailure, (s.afterXchg (frameRD s.cfg)).setAcq .fault) := by
  rw [readData, exchange_none (tx := frameRD s.cfg) h]
  rfl

theorem stop_of_reply {rx : List Byte} (h : s.answer 3 = some rx) :
    stop s = (.ok (), s.afterXchg (frameC3 s.cfg.opStop)) := by
  rw [stop, exchange_some (tx := frameC3 s.cfg.opStop) h]
  rfl

theorem stop_of_fails (h : s.answer 3 = none) :
    stop s = (.error .transportFailure, s.afterXchg (frameC3 s.cfg.opStop)) := by
  rw [stop, exchange_none (tx := frameC3 s.cfg.opStop) h]
  rfl

theorem calibrate_of_reply (op : Byte) {rx : List Byte} (h : s.answer 2 = some rx) :
    calibrate op s = (.ok (), (s.afterXchg (frameC2 op)).delay .calSettle) := by
  rw [calibrate, exchange_some (tx := frameC2 op) h]
  rfl

theorem calibrate_of_fails (op : Byte) (h : s.answer 2 = none) :
    calibrate op s = (.error .transportFailure, s.afterXchg (frameC2 op)) := by
  rw [calibrate, exchange_none (tx := frameC2 op) h]
  rfl

section
variable {status : Option Byte} {raw : Sample} {ref g : Nat}

theorem finish_of_alarm (h : alarm s.cfg status raw = true) :
    finish status raw ref g s = (.error .pgaAlarm, s.setAcq .fault) := by simp [finish, h]

theorem finish_of_gain (h : alarm s.cfg status raw = false) (hg : g ∈ [1, 2, 4, 8, 16, 32, 64, 128]) :
    finish status raw ref g s = (.ok (.millivolts (millivolts raw ref g)), leaveTo .idle s) := by
  obtain ⟨k, hk⟩ := Option.isSome_iff_exists.mp ((gainCode_isSome_iff g).mpr hg)
  simp [finish, h, raw24ToMv, gainOperand, hk, done]

theorem finish_of_no_gain (h : alarm s.cfg status raw = false) (hg : g ∉ [1, 2, 4, 8, 16, 32, 64, 128]) :
    finish status raw ref g s = (.error (.unknownIdentifier (.number g)), s) := by
  simp [finish, h, raw24ToMv, gainOperand, (gainCode_none_iff g).mpr hg]

end

end

/-! ### The obligations on single phases -/

/-- Settles O33: ARM is one exchange of the START frame, answered or failed. -/
theorem startArms : Obligations.StartArms := by
  intro s hl
  obtain ⟨hstart, -⟩ := legal_frames hl
  rw [← hstart]
  refine ⟨rfl, fun rx hq h => ?_, fun hq h => ?_, fun hi hf => exec_start_refused (resting_of_ne hi hf)⟩
  · rw [exec_start_of_resting ((resting_iff _).mpr hq), arm_of_reply h]
    rfl
  · rw [exec_start_of_resting ((resting_iff _).mpr hq), arm_of_fails h]
    rfl

/-- Settles O34: `enterWait` where `ACQ` is Armed. -/
theorem enterWaitStartsTheCount : Obligations.EnterWaitStartsTheCount := by
  intro s
  refine ⟨fun h => ?_, fun h => ?_⟩
  · simp only [execOp, opEnterWait, h, decide_true, accept_true]
    rfl
  · simp [execOp, opEnterWait, h]

/-- Settles O37: READ_DATA is one exchange of the RDATA frame, answered or failed, where a wait has returned. -/
theorem rdataReadsTheSample : Obligations.RdataReadsTheSample := by
  intro s hl
  obtain ⟨-, -, hrdata, -⟩ := legal_frames hl
  rw [← hrdata]
  have accepted (hq : s.acq = .waitingForData) (hw : s.waitDone = true) :
      exec .rdata s = respond ((readData s).mapValue fun d => .sample d.1 d.2) := by
    simp [exec, execRdata, opReadData, (waitReturned_iff _ _).mpr ⟨hq, hw⟩]
  refine ⟨rfl, fun rx hq hw h => ?_, fun hq hw h => ?_, fun h => ?_⟩
  · rw [accepted hq hw, readData_of_reply h]
    rfl
  · rw [accepted hq hw, readData_of_fails h]
    rfl
  · have hr : waitReturned s.acq s.waitDone = false := by
      rw [Bool.eq_false_iff, ne_eq, waitReturned_iff]
      rintro ⟨hq, hw⟩
      exact h.elim (· hq) (by simp [hw])
    simp [exec, execRdata, opReadData, hr]

/-- Settles O38: the two cases of the status byte, with the saturation codes of a legal configuration. -/
theorem alarmPredicate : Obligations.AlarmPredicate := by
  intro c sb raw hl
  simp only [alarm, statusFlags, Bool.or_eq_true, Bool.and_eq_true, saturated_iff hl, or_assoc, and_self]

/-- Settles O39: the alarm test first, then the gain; the reference lies in its type. -/
theorem finishOutcomes : Obligations.FinishOutcomes := by
  intro s status raw ref g href
  have operation : execOp (.finish status raw ref g) s =
      accept (decide (s.acq = .dataAvailable)) (respond (finish status raw ref g s)) := if_pos (decide_eq_true href)
  have accepted (hq : s.acq = .dataAvailable) :
      execOp (.finish status raw ref g) s = respond (finish status raw ref g s) := by
    rw [operation, decide_eq_true hq, accept_true]
  refine ⟨fun hq ha => ?_, fun hq ha hg => ?_, fun hq ha hg => ?_, fun hq => by simp [operation, hq]⟩
  · rw [accepted hq, finish_of_alarm ha]
    rfl
  · rw [accepted hq, finish_of_gain ha hg]
    rfl
  · rw [accepted hq, finish_of_no_gain ha hg]
    rfl

/-- Settles O45: STOP is one exchange of its frame, answered or failed. -/
theorem stopSendsItsFrame : Obligations.StopSendsItsFrame := by
  intro s hl
  obtain ⟨-, hstop, -⟩ := legal_frames hl
  rw [← hstop]
  refine ⟨rfl, fun rx hq h => ?_, fun hq h => ?_, fun hi hf => exec_stop_refused (resting_of_ne hi hf)⟩
  · rw [exec_stop_of_resting ((resting_iff _).mpr hq), stop_of_reply h]
    rfl
  · rw [exec_stop_of_resting ((resting_iff _).mpr hq), stop_of_fails h]
    rfl

/-- Settles O46: both calibrations are one exchange, and the delay only after an answer. -/
theorem calibrationsSendTheirFrames : Obligations.CalibrationsSendTheirFrames := by
  intro s hl
  obtain ⟨-, -, -, hsyocal, hsfocal⟩ := legal_frames hl
  rw [← hsyocal, ← hsfocal]
  refine ⟨rfl, rfl, fun rx hq h => ?_, fun hq h => ?_, fun hi hf => ?_⟩
  · have hq := (resting_iff _).mpr hq
    rw [exec_sfocal_of_resting hq, exec_syocal_of_resting hq, calibrate_of_reply _ h, calibrate_of_reply _ h]
    exact ⟨rfl, rfl⟩
  · have hq := (resting_iff _).mpr hq
    rw [exec_sfocal_of_resting hq, exec_syocal_of_resting hq, calibrate_of_fails _ h, calibrate_of_fails _ h]
    exact ⟨rfl, rfl⟩
  · have hq := resting_of_ne hi hf
    exact ⟨exec_sfocal_refused hq, exec_syocal_refused hq⟩

/-- Settles O47: everything RESET_PULSE changes is `resetPulse_eq`. -/
theorem resetPulseIdlesTheSequencer : Obligations.ResetPulseIdlesTheSequencer := by
  intro s
  refine ⟨fun hq => ?_, fun hi hf => execOp_resetPulse_refused (resting_of_ne hi hf)⟩
  rw [execOp_resetPulse_of_resting ((resting_iff _).mpr hq), resetPulse_eq]
  rfl

@[simp] theorem enterWait_polls (s : State) : (enterWait s).polls = 0 := rfl
@[simp] theorem enterWait_cfg (s : State) : (enterWait s).cfg = s.cfg := rfl
@[simp] theorem enterWait_replies (s : State) : (enterWait s).replies = s.replies := rfl
@[simp] theorem enterWait_samples (s : State) : (enterWait s).samples = s.samples := rfl
@[simp] theorem enterWait_history (s : State) : (enterWait s).history = s.history := rfl

/-! ### The loop of WAIT_POLLED on listed replies (R212) -/

section
variable {s : State} {rx l : List Byte} {ls : List (List Byte)} {rest : List Reply} {v : Byte}

theorem dataReady_eq (v : Byte) : dataReady v = v.getLsbD 2 := rfl

/-- The state after one poll, answered or failed. -/
def State.afterPoll (s : State) : State :=
  (s.setPolls (s.polls + 1)).afterXchg (frameRR s.cfg (s.cfg.regMap.addr .status))

/-- The state after polls that were answered by `rs`. -/
def State.polled (s : State) (rs : List (List Byte)) : State :=
  { s with polls := s.polls + rs.length, replies := s.replies.drop rs.length, tick := s.tick + rs.length,
           history := s.history ++ statusReads s.cfg rs }

@[simp] theorem polled_replies (s : State) (rs : List (List Byte)) :
    (s.polled rs).replies = s.replies.drop rs.length := rfl
@[simp] theorem polled_cfg (s : State) (rs : List (List Byte)) : (s.polled rs).cfg = s.cfg := rfl
@[simp] theorem polled_history (s : State) (rs : List (List Byte)) :
    (s.polled rs).history = s.history ++ statusReads s.cfg rs := rfl

theorem polled_nil (s : State) : s.polled [] = s := by simp [State.polled, statusReads]

theorem polled_append (s : State) (rs rs' : List (List Byte)) : (s.polled rs).polled rs' = s.polled (rs ++ rs') := by
  simp [State.polled, statusReads, Nat.add_assoc]

theorem afterPoll_of_reply (h : s.answer (2 + s.cfg.nDummy) = some rx) : s.afterPoll = s.polled [rx] := by
  have fields : s.afterPoll = { s with
      polls := s.polls + 1, replies := s.replies.tail, tick := s.tick + 1,
      history := s.history ++ [.xchg (frameRR s.cfg (s.cfg.regMap.addr .status))
        (s.answer (frameRR s.cfg (s.cfg.regMap.addr .status)).length)] } := rfl
  rw [fields, frameRR_length, h]
  simp [State.polled, statusReads]

theorem pollLoop_of_reply (n : Nat) (h : s.answer (2 + s.cfg.nDummy) = some rx) : pollLoop (n + 1) s =
    if dataReady (replyByte rx 2) then (.ok (), s.polled [rx]) else pollLoop n (s.polled [rx]) := by
  rcases pollLoop_succ n s with ⟨rx', h', e⟩ | ⟨h', -⟩
  · obtain rfl := Option.some.inj (h.symm.trans h')
    rw [e, ← afterPoll_of_reply h]
    rfl
  · cases h.symm.trans h'

theorem pollLoop_of_fails (n : Nat) (h : s.answer (2 + s.cfg.nDummy) = none) :
    pollLoop (n + 1) s = (.error .transportFailure, s.afterPoll.setAcq .fault) := by
  rcases pollLoop_succ n s with ⟨rx', h', -⟩ | ⟨-, e⟩
  · cases h.symm.trans h'
  · exact e

/-- A listed reply is given to the next exchange, filled or cut to its frame's length (log entry 4). -/
theorem answer_of_listed_bytes (h : s.replies = .bytes l :: rest) (n : Nat) :
    s.answer n = some (fillReply s.tick n l) := by simp [State.answer, h]

/-- A listed reply that has a byte 2 gives the poll that byte, however long it is (log entry 4). -/
theorem answer_of_listed (hd : 1 ≤ s.cfg.nDummy) (h : s.replies = .bytes l :: rest) (hv : l[2]? = some v) :
    ∃ rx, s.answer (2 + s.cfg.nDummy) = some rx ∧ replyByte rx 2 = v := by
  refine ⟨_, answer_of_listed_bytes h _, replyByte_eq ?_⟩
  have hlen : 2 < 2 + s.cfg.nDummy := by omega
  simp [fillReply, List.getD_eq_getElem?_getD, hv, hlen]

/-- A listed reply that shows not-ready: bit 2 of its byte 2 is clear. -/
def NotReady (x : List Byte) : Prop := ∃ w : Byte, x[2]? = some w ∧ w.getLsbD 2 = false

section
variable (hd : 1 ≤ s.cfg.nDummy) (hls : ∀ x ∈ ls, NotReady x)
include hd hls

/-- Not-ready replies use up one poll each. -/
theorem pollLoop_of_not_ready (h : s.replies = ls.map .bytes ++ rest) (n : Nat) :
    ∃ rs, rs.length = ls.length ∧ pollLoop (ls.length + n) s = pollLoop n (s.polled rs) := by
  induction ls generalizing s with
  | nil => exact ⟨[], rfl, by simp [polled_nil]⟩
  | cons x ls ih =>
    obtain ⟨w, hw, hbit⟩ := hls x List.mem_cons_self
    obtain ⟨rx, hrx, hbyte⟩ := answer_of_listed hd h hw
    have hrest : (s.polled [rx]).replies = ls.map .bytes ++ rest := by simp [h]
    obtain ⟨rs, hlen, e⟩ := ih (s := s.polled [rx]) hd (fun y hy => hls y (List.mem_cons_of_mem x hy)) hrest
    have hnot : ¬ dataReady (replyByte rx 2) = true := by
      rw [hbyte, dataReady_eq, hbit]
      decide
    refine ⟨rx :: rs, by simp [hlen], ?_⟩
    rw [List.length_cons, Nat.add_right_comm, pollLoop_of_reply _ hrx, if_neg hnot, e, polled_append]
    rfl

/-- A ready reply after the not-ready ones, within the budget, ends the wait well. -/
theorem waitPolled_of_ready (h : s.replies = ls.map .bytes ++ .bytes l :: rest) (hl : l[2]? = some v)
    (hv : v.getLsbD 2 = true) (hlt : ls.length < s.cfg.retryBudget) :
    ∃ rs, rs.length = ls.length + 1 ∧ waitPolled s = (.ok (), ((enterWait s).polled rs).setWaitDone true) := by
  obtain ⟨n, hn⟩ := Nat.exists_eq_add_of_lt hlt
  obtain ⟨rs, hlen, e⟩ := pollLoop_of_not_ready (s := enterWait s) hd hls h (n + 1)
  have hrest : ((enterWait s).polled rs).replies = .bytes l :: rest := by
    simpa [hlen] using congrArg (List.drop ls.length) h
  obtain ⟨rx, hrx, rfl⟩ := answer_of_listed (s := (enterWait s).polled rs) hd hrest hl
  refine ⟨rs ++ [rx], by simp [hlen], ?_⟩
  rw [waitPolled, hn, Nat.add_assoc, e, pollLoop_of_reply n hrx, dataReady_eq, if_pos hv, polled_append]
  rfl

/-- A budget of not-ready replies is a `Timeout` (R255). -/
theorem waitPolled_of_never_ready (h : s.replies = ls.map .bytes ++ rest) (hlen : ls.length = s.cfg.retryBudget) :
    ∃ rs, rs.length = s.cfg.retryBudget ∧
      waitPolled s = (.error .timeout, ((enterWait s).polled rs).setAcq .fault) := by
  obtain ⟨rs, hrs, e⟩ := pollLoop_of_not_ready (s := enterWait s) hd hls h 0
  refine ⟨rs, hrs.trans hlen, ?_⟩
  rw [waitPolled, ← hlen, ← Nat.add_zero ls.length, e]
  rfl

/-- A failed poll after the not-ready ones, within the budget, ends the wait in Fault (R257). -/
theorem waitPolled_of_fails (h : s.replies = ls.map .bytes ++ .fails :: rest) (hlt : ls.length < s.cfg.retryBudget) :
    ∃ rs, rs.length = ls.length ∧
      waitPolled s = (.error .transportFailure, ((enterWait s).polled rs).afterPoll.setAcq .fault) := by
  obtain ⟨n, hn⟩ := Nat.exists_eq_add_of_lt hlt
  obtain ⟨rs, hlen, e⟩ := pollLoop_of_not_ready (s := enterWait s) hd hls h (n + 1)
  have hrest : ((enterWait s).polled rs).replies = .fails :: rest := by
    simpa [hlen] using congrArg (List.drop ls.length) h
  refine ⟨rs, hlen, ?_⟩
  rw [waitPolled, hn, Nat.add_assoc, e, pollLoop_of_fails n (answer_of_fails _ hrest)]
  rfl

end

end

/-! ### The loop of WAIT_SIGNAL on listed samples (R213) -/

section
variable {s : State} {k : Nat} {rest : List Bool}

/-- The state after samples of the levels `bs`. -/
def State.sampled (s : State) (bs : List Bool) : State :=
  { s with polls := s.polls + bs.length, samples := s.samples.drop bs.length, tick := s.tick + bs.length,
           history := s.history ++ bs.map .sampleDrdy }

@[simp] theorem sampled_polls (s : State) (bs : List Bool) : (s.sampled bs).polls = s.polls + bs.length := rfl
@[simp] theorem sampled_samples (s : State) (bs : List Bool) : (s.sampled bs).samples = s.samples.drop bs.length := rfl
@[simp] theorem sampled_cfg (s : State) (bs : List Bool) : (s.sampled bs).cfg = s.cfg := rfl
@[simp] theorem sampled_history (s : State) (bs : List Bool) :
    (s.sampled bs).history = s.history ++ bs.map .sampleDrdy := rfl

theorem sampled_nil (s : State) : s.sampled [] = s := by simp [State.sampled]

theorem sampled_append (s : State) (bs bs' : List Bool) : (s.sampled bs).sampled bs' = s.sampled (bs ++ bs') := by
  simp [State.sampled, Nat.add_assoc]

theorem sampleLoop_of_listed {b : Bool} (n : Nat) (h : s.samples = b :: rest) : sampleLoop (n + 1) s =
    if b then sampleLoop n (s.sampled [b]) else (.ok (), s.sampled [b]) := by
  have hlevel : s.level = b := by simp [State.level, h]
  have hstate : (s.setPolls (s.polls + 1)).afterSample = s.sampled [b] := by
    have fields : (s.setPolls (s.polls + 1)).afterSample = { s with
      polls := s.polls + 1, samples := s.samples.tail, tick := s.tick + 1,
      history := s.history ++ [.sampleDrdy s.level] } := rfl
    simp [fields, State.sampled, hlevel]
  rw [sampleLoop_succ, hlevel, hstate]

/-- Samples of 1 use up one of the budget each. -/
theorem sampleLoop_of_high (h : s.samples = List.replicate k true ++ rest) (n : Nat) :
    sampleLoop (k + n) s = sampleLoop n (s.sampled (List.replicate k true)) := by
  induction k generalizing s with
  | zero => simp [sampled_nil]
  | succ k ih =>
    have hrest : (s.sampled [true]).samples = List.replicate k true ++ rest := by
      simp [h, List.replicate_succ]
    rw [Nat.add_right_comm, sampleLoop_of_listed _ h, if_pos rfl, ih hrest, sampled_append]
    rfl

/-- A sample of 0 after samples of 1, within the budget, ends the wait well. -/
theorem waitSignal_of_low (h : s.samples = List.replicate k true ++ false :: rest) (hlt : k < s.cfg.retryBudget) :
    waitSignal s =
      (.ok (), ((enterWait s).sampled (List.replicate k true ++ [false])).setWaitDone true) := by
  obtain ⟨n, hn⟩ := Nat.exists_eq_add_of_lt hlt
  have hrest : ((enterWait s).sampled (List.replicate k true)).samples = false :: rest := by
    simpa using congrArg (List.drop k) h
  rw [waitSignal, hn, Nat.add_assoc, sampleLoop_of_high (s := enterWait s) h, sampleLoop_of_listed n hrest,
    sampled_append]
  rfl

/-- A budget of samples of 1 is a `Timeout` (R255). -/
theorem waitSignal_of_never_low (h : s.samples = List.replicate s.cfg.retryBudget true ++ rest) :
    waitSignal s =
      (.error .timeout, ((enterWait s).sampled (List.replicate s.cfg.retryBudget true)).setAcq .fault) := by
  rw [waitSignal, ← Nat.add_zero s.cfg.retryBudget, sampleLoop_of_high (s := enterWait s) h]
  rfl

end

/-! ### The two waits as operations -/

@[simp] theorem sentFrames_append (es es' : List Event) : sentFrames (es ++ es') = sentFrames es ++ sentFrames es' :=
  List.filterMap_append

@[simp] theorem sentFrames_nil : sentFrames [] = [] := rfl

@[simp] theorem sentFrames_xchg_cons (tx : List Byte) (rx : Option (List Byte)) (es : List Event) :
    sentFrames (.xchg tx rx :: es) = tx :: sentFrames es := rfl

@[simp] theorem sentFrames_statusReads (c : Config) (rs : List (List Byte)) :
    sentFrames (statusReads c rs) = List.replicate rs.length (frameRR c c.regMap.status) := by
  induction rs with
  | nil => rfl
  | cons rx rs ih => exact congrArg (frameRR c c.regMap.status :: ·) ih

theorem execOp_waitPolled {s : State} (h : s.acq = .armed) :
    execOp .waitPolled s = respond ((waitPolled s).mapValue fun _ => .unit) := by
  simp [execOp, opWaitPolled, h]

theorem execOp_waitSignal {s : State} (h : s.acq = .armed) :
    execOp .waitSignal s = respond ((waitSignal s).mapValue fun _ => .unit) := by
  simp [execOp, opWaitSignal, h]

/-- Settles O35: the not-ready replies use up the polls of the budget (`pollLoop_of_not_ready`), and what follows them
ends the wait. -/
theorem waitPolledOutcomes : Obligations.WaitPolledOutcomes := by
  intro s ls rest hq hd hls
  rw [execOp_waitPolled hq]
  refine ⟨fun l v h hl hv hlt => ?ready, fun h hlen => ?timeout, fun h hlt => ?fails, fun h0 => ?noBudget⟩
  case ready =>
    obtain ⟨rs, hrs, e⟩ := waitPolled_of_ready hd hls h hl hv hlt
    have hrest : s.replies.drop rs.length = rest := by simp [h, hrs, List.drop_append]
    rw [e]
    refine ⟨_, rfl, rfl, rfl, (Nat.zero_add _).trans hrs, rfl, hrest, ?_⟩
    rw [newEvents_of_history (es := statusReads s.cfg rs) rfl, sentFrames_statusReads, hrs]
  case timeout =>
    obtain ⟨rs, hrs, e⟩ := waitPolled_of_never_ready hd hls h hlen
    have hrest : s.replies.drop rs.length = rest := by simp [h, hrs, ← hlen]
    rw [e]
    refine ⟨_, rfl, rfl, rfl, (Nat.zero_add _).trans hrs, rfl, hrest, ?_⟩
    rw [newEvents_of_history (es := statusReads s.cfg rs) rfl, sentFrames_statusReads, hrs]
  case fails =>
    obtain ⟨rs, hrs, e⟩ := waitPolled_of_fails hd hls h hlt
    have hpolls : 0 + rs.length + 1 = ls.length + 1 := by omega
    have hrest : (s.replies.drop rs.length).tail = rest := by simp [h, hrs]
    rw [e]
    exact ⟨_, rfl, rfl, rfl, hpolls, rfl, hrest⟩
  case noBudget =>
    rw [waitPolled, h0]
    rfl

/-- Settles O36: the samples of 1 use up the budget (`sampleLoop_of_high`), and what follows them ends the wait. -/
theorem waitSignalOutcomes : Obligations.WaitSignalOutcomes := by
  intro s k rest hq
  rw [execOp_waitSignal hq]
  refine ⟨fun h hlt => ?low, fun h => ?timeout⟩
  case low =>
    rw [waitSignal_of_low h hlt]
    refine ⟨_, rfl, rfl, rfl, ?polls, rfl, ?samples, rfl, newEvents_of_history ?events⟩
    · simp
    · simp [h, List.drop_append]
    · simp
  case timeout =>
    rw [waitSignal_of_never_low h]
    refine ⟨_, rfl, rfl, rfl, ?_, rfl, ?_, rfl, newEvents_of_history ?_⟩
    · simp
    · simp [h]
    · simp

/-! ### COLLECT_MEASUREMENT (R216) -/

theorem waitModeOf_eq_none_iff (mode : Ident) : waitModeOf mode = none ↔ mode ≠ "Polled" ∧ mode ≠ "SignalDriven" := by
  unfold waitModeOf
  split
  case isTrue h => simp [h]
  case isFalse h => simp [h]

theorem waitModeOf_polled : waitModeOf "Polled" = some .polled := by decide

theorem waitModeOf_signalDriven : waitModeOf "SignalDriven" = some .signalDriven := by decide

/-- From `u`, where the wait has returned, the acquisition read the reply `d` and ended in `t` as FINISH does on the
status byte and the sample `p` (R215, R217). -/
structure FinishesOn (u : State) (d : List Byte) (p : Option Byte × Sample) (ref g : Nat) (t : State) : Prop where
  polls : t.polls = u.polls
  replies : t.replies = u.replies.tail
  samples : t.samples = u.samples
  sh : t.sh = u.sh
  history : t.history = u.history ++ [.xchg (frameRD u.cfg) (some d)]
  number : alarm u.cfg p.1 p.2 = false →
    t.acq = .idle ∧ t.response = some (.ok (.millivolts (millivolts p.2 ref g)))
  alarmed : alarm u.cfg p.1 p.2 = true → t.acq = .fault ∧ t.response = some (.err .pgaAlarm)

section
variable {s u : State} {mode : Ident} {m : WaitMode} {rx0 d : List Byte} {p : Option Byte × Sample}
  {rest : List Reply} {ref g : Nat}

variable (hq : s.acq.resting = true) (href : ref < 2 ^ s.cfg.refW) (hg : g ∈ [1, 2, 4, 8, 16, 32, 64, 128])
  (hm : waitModeOf mode = some m)
include hq href hg hm

/-- With a known mode and gain the operation is its four phases. -/
theorem execOp_collect_of_known :
    execOp (.collectMeasurement mode ref g) s = respond (collectPhases m ref g s) := by
  have operation : execOp (.collectMeasurement mode ref g) s =
      accept s.acq.resting (respond (collect mode ref g s)) := if_pos (decide_eq_true href)
  rw [operation, hq, accept_true]
  rcases collect_cases mode ref g s with ⟨hno, -⟩ | ⟨m', hm', ⟨hno, -⟩ | ⟨-, e⟩⟩
  · cases hm.symm.trans hno
  · exact absurd hg ((gainCode_none_iff g).mp hno)
  · obtain rfl := Option.some.inj (hm.symm.trans hm')
    rw [e]

variable (h0 : s.answer 3 = some rx0)
include h0

/-- An error of the wait ends it: there is no RDATA exchange. -/
theorem execOp_collect_of_wait_error {e : Err} (hw : wait m s.afterStart = (.error e, u)) :
    execOp (.collectMeasurement mode ref g) s = .next (u.responding (.err e)) := by
  rw [execOp_collect_of_known hq href hg hm, collectPhases, arm_of_reply h0, andThen_ok, hw]
  rfl

/-- A wait that returns is followed by the RDATA exchange and FINISH. -/
theorem execOp_collect_of_wait_ok (hw : wait m s.afterStart = (.ok (), u)) (hr : u.replies = .bytes d :: rest)
    (hd : d.length = 9) (hp : p = parseRdata u.cfg d u.layout.1 u.layout.2) :
    ∃ t, execOp (.collectMeasurement mode ref g) s = .next t ∧ FinishesOn u d p ref g t := by
  have hread : u.answer 9 = some d := hd ▸ answer_of_bytes hr
  have hhist : (u.afterXchg (frameRD u.cfg)).history = u.history ++ [.xchg (frameRD u.cfg) (some d)] := by
    rw [afterXchg_history, frameRD_length, hread]
  rw [execOp_collect_of_known hq href hg hm, collectPhases, arm_of_reply h0, andThen_ok, hw, andThen_ok,
    readData_of_reply hread, andThen_ok, ← hp]
  cases ha : alarm u.cfg p.1 p.2 with
  | false =>
    rw [finish_of_gain (s := leaveTo .dataAvailable (u.afterXchg (frameRD u.cfg))) ha hg]
    exact ⟨_, rfl, rfl, rfl, rfl, rfl, hhist, fun _ => ⟨rfl, rfl⟩, by simp [ha]⟩
  | true =>
    rw [finish_of_alarm (s := leaveTo .dataAvailable (u.afterXchg (frameRD u.cfg))) ha]
    exact ⟨_, rfl, rfl, rfl, rfl, rfl, hhist, by simp [ha], fun _ => ⟨rfl, rfl⟩⟩

end

/-- Settles O40: START is answered, the polls end data-ready (`waitPolled_of_ready`), and FINISH ends the run. -/
theorem collectPolledRun : Obligations.CollectPolledRun := by
  intro s rx0 l d ls v rest ref g status raw hl hq href hg h hls hv hbit hlt hd hp
  obtain ⟨hstart, -⟩ := legal_frames hl
  have hafter : s.afterStart.replies = ls.map .bytes ++ .bytes l :: .bytes d :: rest := congrArg List.tail h
  obtain ⟨rs, hrs, hw⟩ := waitPolled_of_ready (s := s.afterStart) (legal_nDummy hl) hls hafter hv hbit hlt
  have hlast : s.afterStart.replies.drop rs.length = .bytes d :: rest := by
    rw [hafter, hrs]
    simp [List.drop_append]
  obtain ⟨t, e, ht⟩ :=
    execOp_collect_of_wait_ok hq href hg waitModeOf_polled (answer_of_listed_bytes h 3) hw hlast hd hp
  refine ⟨t, e, ?polls, ?replies, ht.sh, ?frames, ht.number, ht.alarmed⟩
  case polls => exact ht.polls.trans ((Nat.zero_add _).trans hrs)
  case replies => exact ht.replies.trans (congrArg List.tail hlast)
  case frames =>
    have hhist : t.history = s.history ++ (.xchg (frameC3 s.cfg.opStart) (s.answer 3) :: (statusReads s.cfg rs ++
        [.xchg (frameRD s.cfg) (some d)])) := by simp [ht.history]
    rw [newEvents_of_history hhist, ← hstart, ← hrs]
    simp

/-- Settles O41: START is answered, the samples end low (`waitSignal_of_low`), and FINISH ends the run. -/
theorem collectSignalRun : Obligations.CollectSignalRun := by
  intro s rx0 d k rest srest ref g status raw hl hq href hg h hd hs hlt hp
  obtain ⟨hstart, -⟩ := legal_frames hl
  have hw := waitSignal_of_low (s := s.afterStart) hs hlt
  have hlast : s.afterStart.replies = .bytes d :: rest := congrArg List.tail h
  obtain ⟨t, e, ht⟩ :=
    execOp_collect_of_wait_ok hq href hg waitModeOf_signalDriven (answer_of_listed_bytes h 3) hw hlast hd hp
  refine ⟨t, s.answer 3, e, ?polls, ?replies, ?samples, ht.sh, newEvents_of_history ?events, ht.number, ht.alarmed⟩
  case polls => simp [ht.polls]
  case replies => exact ht.replies.trans (congrArg List.tail hlast)
  case samples => simp [ht.samples, hs, List.drop_append]
  case events => simp [ht.history, hstart]

/-- Settles O42: the wait uses up the budget (`waitPolled_of_never_ready`, `waitSignal_of_never_low`), and its error
ends the acquisition. -/
theorem neverReadyEndsInTimeout : Obligations.NeverReadyEndsInTimeout := by
  intro s rx0 ref g hl hq href hg
  obtain ⟨hstart, -⟩ := legal_frames hl
  rw [← hstart]
  refine ⟨fun ls rest h hlen hls => ?polled, fun rest srest h hs => ?signal⟩
  case polled =>
    have hafter : s.afterStart.replies = ls.map .bytes ++ rest := congrArg List.tail h
    obtain ⟨rs, hrs, hw⟩ := waitPolled_of_never_ready (s := s.afterStart) (legal_nDummy hl) hls hafter hlen
    refine ⟨_, execOp_collect_of_wait_error hq href hg waitModeOf_polled (answer_of_listed_bytes h 3) hw, rfl, rfl,
      (Nat.zero_add _).trans hrs, ?_⟩
    rw [newEvents_of_history (es := .xchg (frameC3 s.cfg.opStart) (s.answer 3) :: statusReads s.cfg rs)
      (by simp [State.responding]), sentFrames_xchg_cons, sentFrames_statusReads, hrs, afterStart_cfg]
  case signal =>
    have hw := waitSignal_of_never_low (s := s.afterStart) hs
    refine ⟨_, s.answer 3,
      execOp_collect_of_wait_error hq href hg waitModeOf_signalDriven (answer_of_listed_bytes h 3) hw, rfl, rfl,
      ?polls, newEvents_of_history ?events⟩
    case polls => simp [State.responding]
    case events => simp [State.responding]

/-- With the status byte on, the sample of a reply is its bytes 3 to 5 (R84, R109). -/
theorem parseRdata_status_only (c : Config) (b0 b1 b2 x y z b6 b7 b8 : Byte) :
    parseRdata c [b0, b1, b2, x, y, z, b6, b7, b8] true false = (some b2, x ++ y ++ z) := rfl

/-- Settles O43: the sample is the positive saturation code, an alarm whatever the status byte; the two runs are O40
and O41. -/
theorem saturatedSampleEndsInPgaAlarm : Obligations.SaturatedSampleEndsInPgaAlarm := by
  rintro s rx0 _ b0 b1 b2 b6 b7 b8 rest ref g hl hq href hg hlayout rfl
  have hp : (some b2, (0x7F : Byte) ++ (0xFF : Byte) ++ (0xFF : Byte)) =
      parseRdata s.cfg [b0, b1, b2, 0x7F, 0xFF, 0xFF, b6, b7, b8] s.layout.1 s.layout.2 := by
    rw [hlayout, parseRdata_status_only]
  have halarm : alarm s.cfg (some b2) ((0x7F : Byte) ++ (0xFF : Byte) ++ (0xFF : Byte)) = true :=
    (alarmPredicate s.cfg b2 _ hl).1.mpr (.inr (.inr (.inl (by decide))))
  refine ⟨fun l ls v h hls hv hbit hlt => ?polled, fun k srest h hs hlt => ?signal⟩
  case polled =>
    obtain ⟨t, e, -, -, -, -, -, ht⟩ :=
      collectPolledRun s rx0 l _ ls v rest ref g _ _ hl hq href hg h hls hv hbit hlt rfl hp
    exact ⟨t, e, (ht halarm).2, (ht halarm).1⟩
  case signal =>
    obtain ⟨t, -, e, -, -, -, -, -, -, ht⟩ :=
      collectSignalRun s rx0 _ k rest srest ref g _ _ hl hq href hg h rfl hs hlt hp
    exact ⟨t, e, (ht halarm).2, (ht halarm).1⟩

/-- Settles O44: the two operand checks leave the state alone (`collect_cases`); past them the phases end as
`collectPhases_ends` says. -/
theorem collectEndsInIdleOrFault : Obligations.CollectEndsInIdleOrFault := by
  intro s t mode ref g e
  obtain ⟨-, e⟩ := withReference_eq_next.mp e
  obtain ⟨-, e⟩ := accept_eq_next.mp e
  have mode_known {m : WaitMode} (hm : waitModeOf mode = some m) : ¬ (mode ≠ "Polled" ∧ mode ≠ "SignalDriven") :=
    fun h => by simp [(waitModeOf_eq_none_iff mode).mpr h] at hm
  rcases collect_cases mode ref g s with ⟨hm, e'⟩ | ⟨m, hm, ⟨hgain, e'⟩ | ⟨hgain, e'⟩⟩
  · obtain ⟨hp, hs⟩ := (waitModeOf_eq_none_iff mode).mp hm
    rw [e'] at e
    cases e
    exact ⟨fun _ _ => rfl, fun h => absurd h (by simp [hp, hs]), fun h => absurd h (by simp [hp, hs])⟩
  · rw [e'] at e
    cases e
    have hno := (gainCode_none_iff g).mp hgain
    exact ⟨fun hp hs => absurd ⟨hp, hs⟩ (mode_known hm), fun _ _ => rfl, fun _ h => absurd h hno⟩
  · rw [e'] at e
    have hin := (gainCode_isSome_iff g).mp hgain
    refine ⟨fun hp hs => absurd ⟨hp, hs⟩ (mode_known hm), fun _ h => absurd hin h, fun _ _ => ?_⟩
    cases e
    rcases collectPhases_ends hgain m ref s with ⟨hacq, q, hv⟩ | ⟨hacq, er, herr, hkind⟩
    · exact .inl ⟨q, by simp [hv, toResponse], hacq⟩
    · refine .inr ⟨?_, hacq⟩
      rcases hkind with rfl | rfl | rfl <;> simp [herr, toResponse]

/-! ### The moves of `ACQ` (R224) -/

theorem acq_of_respond {t : State} {r : Res Value} (e : respond r = .next t) : t.acq = r.2.acq := by
  cases e
  rfl

theorem acq_of_respond_mapValue {α : Type} {t : State} {r : Res α} {f : α → Value}
    (e : respond (r.mapValue f) = .next t) : t.acq = r.2.acq := by rw [acq_of_respond e, mapValue_snd]

theorem arm_acq_mem (s : State) : (arm s).2.acq ∈ [Acq.armed, .fault] := by
  rcases arm_cases s with ⟨_, -, e⟩ | ⟨-, e⟩ <;> simp [e]

/-- A wait that returns leaves `ACQ` as its loop does. -/
theorem andThen_waitOk_acq (r : Res Unit) : (r.andThen fun _ s => waitOk s).2.acq = r.2.acq := by
  rcases andThen_waitOk_cases r with ⟨u, rfl, e⟩ | ⟨_, u, rfl, e⟩
  · rw [e]
    rfl
  · rw [e]

theorem waitPolled_acq_mem (s : State) : (waitPolled s).2.acq ∈ [Acq.waitingForData, .fault] := by
  rw [waitPolled, andThen_waitOk_acq]
  obtain ⟨_, -, -, -, -, ⟨-, -, h, -⟩ | ⟨-, -, h, -⟩ | ⟨-, -, h, -⟩⟩ := pollLoop_spec s.cfg.retryBudget (enterWait s)
  · exact h ▸ List.mem_cons_self
  · simp [h]
  · simp [h]

theorem waitSignal_acq_mem (s : State) : (waitSignal s).2.acq ∈ [Acq.waitingForData, .fault] := by
  rw [waitSignal, andThen_waitOk_acq]
  obtain ⟨-, -, -, ⟨_, -, -, h, -⟩ | ⟨-, h, -⟩⟩ := sampleLoop_spec s.cfg.retryBudget (enterWait s)
  · exact h ▸ List.mem_cons_self
  · simp [h]

theorem readData_acq_mem (s : State) : (readData s).2.acq ∈ [Acq.dataAvailable, .fault] := by
  rcases readData_cases s with ⟨_, -, -, e⟩ | ⟨-, e⟩ <;> simp [e]

theorem finish_acq_mem (status : Option Byte) (raw : Sample) (ref g : Nat) (s : State) :
    (finish status raw ref g s).2.acq ∈ [Acq.idle, .fault, s.acq] := by
  rcases finish_cases status raw ref g s with ⟨-, e⟩ | ⟨-, -, e⟩ | ⟨-, -, e⟩ <;> simp [e]

theorem collect_acq_mem (mode : Ident) (ref g : Nat) (s : State) :
    (collect mode ref g s).2.acq ∈ [Acq.idle, .fault, s.acq] := by
  rcases collect_cases mode ref g s with ⟨-, e⟩ | ⟨m, -, ⟨-, e⟩ | ⟨hg, e⟩⟩
  · simp [e]
  · simp [e]
  · rcases collectPhases_ends hg m ref s with ⟨h, -⟩ | ⟨h, -⟩ <;> simp [e, h]

/-- The table lists no move for a pure operation (R265). -/
theorem successors_of_pure {o : HostOp} (ho : o.pure = true) (a : Acq) : o.successors a = [a] := by
  cases o with
  | arm | enterWait | waitPolled | waitSignal | readData | finish | collectMeasurement | resetPulse => cases ho
  | _ => rfl

theorem OpRun.acq_mem {o : HostOp} {s t : State} (h : OpRun s o t) : t.acq ∈ o.successors s.acq := by
  have stays (ho : o.successors s.acq = [s.acq]) : t.acq ∈ o.successors s.acq :=
    ho ▸ List.mem_singleton.mpr (h.acq_eq ho)
  cases h with
  | pure _ _ ho => exact stays (successors_of_pure ho _)
  | read _ _ _ hs | write _ _ _ hs | control _ _ _ hs => exact stays hs
  | enterWait | resetPulse => exact List.mem_singleton_self _
  | arm _ e => exact acq_of_respond_mapValue e ▸ arm_acq_mem s
  | waitPolled _ e => exact acq_of_respond_mapValue e ▸ waitPolled_acq_mem s
  | waitSignal _ e => exact acq_of_respond_mapValue e ▸ waitSignal_acq_mem s
  | readData _ e => exact acq_of_respond_mapValue e ▸ readData_acq_mem s
  | finish status raw ref g _ hq e => exact acq_of_respond e ▸ hq ▸ finish_acq_mem status raw ref g s
  | collect mode ref g _ e => exact acq_of_respond e ▸ collect_acq_mem mode ref g s

theorem ExecRun.acq_mem {i : Instr} {s t : State} (h : ExecRun s t i) : t.acq ∈ instrSuccessors i s.acq := by
  have stays (hs : i ≠ .start) (hr : i ≠ .rdata) : t.acq ∈ [s.acq] := List.mem_singleton.mpr (h.acq_eq hs hr)
  cases h with
  | start e | rdata e => exact (execOp_runs e).acq_mem
  | reset | stop | syocal | sfocal | rreg | wreg => exact stays nofun nofun

/-- Settles O56: an operation or a wire command moves `ACQ` as its shape allows (`OpRun.acq_mem`, `ExecRun.acq_mem`);
the block's reset leaves Idle. -/
theorem acqMovesOnlyAsTheTableSays : Obligations.AcqMovesOnlyAsTheTableSays := by
  intro s t r rest hi e
  have same {r' : Request} {rest' : List Request} (h : s.inbox = r' :: rest') : r = r' :=
    (List.cons.inj (hi.symm.trans h)).1
  obtain ⟨-, h⟩ := step_runs e
  cases h with
  | waits h => cases hi.symm.trans h
  | op o rest' _ h e =>
    obtain rfl := same h
    exact (execOp_runs e).acq_mem
  | frame f i rest' _ h hd e =>
    obtain rfl := same h
    rw [Request.successors, hd]
    exact (exec_runs e).acq_mem
  | blockReset _ h | resetBefore _ _ _ h | resetDuring _ _ _ _ h =>
    obtain rfl := same h
    exact List.mem_singleton_self _

end Sys2Proof.Machine
end

section
/-!
SUPPORT. Exceptions (60_exceptions.md): where an operation responds at all (R250, R171, U21); what an error leaves
(R262); that a failed exchange is the last event (R257); and the unknown options of the encoders and setters (R252,
R261).
-/

namespace Sys2Proof.Machine

/-! ### Acceptance (R250, R171, D22) -/

section
variable {o : HostOp} {s : State}

/-- With its operands in their types every operation is one response behind its `require`. -/
theorem execOp_eq_accept (h : o.inType s.cfg = true) :
    ∃ r : Res Value, execOp o s = accept (o.accepts s.acq s.waitDone) (respond r) := by
  cases o with
  | parseRreg rx => exact ⟨_, if_neg (Nat.not_lt.mpr (of_decide_eq_true h))⟩
  | parseRdata rx statenb crcenb => exact ⟨_, if_neg (Nat.not_lt.mpr (of_decide_eq_true h))⟩
  | raw24ToMv | finish | collectMeasurement => exact ⟨_, if_pos h⟩
  | _ => exact ⟨_, rfl⟩

theorem execOp_of_accepted (h : o.inType s.cfg = true) (ha : o.accepts s.acq s.waitDone = true) :
    ∃ (t : State) (r : Response), execOp o s = .next t ∧ t.response = some r := by
  obtain ⟨r, e⟩ := execOp_eq_accept h
  rw [e, ha, accept_true]
  exact ⟨_, _, rfl, rfl⟩

theorem execOp_of_not_accepted (h : o.inType s.cfg = true) (ha : o.accepts s.acq s.waitDone = false) :
    execOp o s = .refused .notAccepted := by
  obtain ⟨r, e⟩ := execOp_eq_accept h
  rw [e, ha, accept_false]

/-- A reference of more than `REF_W` bits is refused before anything else (U21, log entry 21). -/
theorem withReference_of_large {n : Nat} (h : 2 ^ s.cfg.refW ≤ n) (k : Host.Outcome State Fault Refusal) :
    withReference n s k = .refused .referenceOutOfRange :=
  if_neg (by simpa [referenceInRange] using h)

end

/-- Settles O24: an operation with operands in their types is one response behind its `require` (`execOp_eq_accept`);
the three that take a reference test it first. -/
theorem operationsRespondExactlyWhereAccepted : Obligations.OperationsRespondExactlyWhereAccepted := fun _ =>
  ⟨fun _ hin => ⟨execOp_of_accepted hin, execOp_of_not_accepted hin⟩, fun _ _ hlarge =>
    ⟨fun _ _ _ => withReference_of_large hlarge _, fun _ _ => withReference_of_large hlarge _,
      fun _ => withReference_of_large hlarge _⟩⟩

/-! ### The errors of each shape of an operation (R262) -/

section
variable {s t : State} {e : Err}

theorem LookRun.unknown_of_error (h : LookRun s t) (he : t.response = some (.err e)) :
    ∃ u, e = .unknownIdentifier u := by
  cases h with
  | ok => cases he
  | unknown u => cases he; exact ⟨u, rfl⟩

/-- A read ends in no error that R262 sends to Fault. -/
theorem ReadRun.not_entersFault_of_error (h : ReadRun s t) (he : t.response = some (.err e)) :
    e.entersFault .control = false := by
  cases h with
  | unknown | fails => cases he; rfl
  | reads _ _ _ _ hu =>
    obtain ⟨u, rfl⟩ := hu.unknown_of_error he
    rfl

/-- A write+verify cycle ends in no error that R262 sends to Fault. -/
theorem WriteRun.not_entersFault_of_error {w : Option RegId} (h : WriteRun w s t) (he : t.response = some (.err e)) :
    e.entersFault .control = false := by
  cases h with
  | unknown | writeFails | readFails | mismatch => cases he; rfl
  | verified | status => cases he

/-- STOP and the calibrations end in no error that R262 sends to Fault. -/
theorem ControlRun.not_entersFault_of_error (h : ControlRun s t) (he : t.response = some (.err e)) :
    e.entersFault .control = false := by
  cases h with
  | fails => cases he; rfl
  | stops | settles => cases he

/-- A cycle that ends in an error commits nothing (R172). -/
theorem WriteRun.sh_of_error {w : Option RegId} (h : WriteRun w s t) (he : t.response = some (.err e)) :
    t.sh = s.sh := by
  cases h with
  | unknown | writeFails | readFails | mismatch => rfl
  | verified | status => cases he

theorem toResponse_eq_err {x : Except Err Value} : toResponse x = .err e ↔ x = .error e := by
  cases x <;> simp [toResponse]

/-- An error in the response is the result's error. -/
theorem fst_of_respond_error {r : Res Value} (hr : respond r = .next t) (he : t.response = some (.err e)) :
    r.1 = .error e := by
  cases hr
  exact toResponse_eq_err.mp (Option.some.inj he)

/-- The same where the result's value is seen through a function. -/
theorem fst_of_respond_mapValue_error {α : Type} {r : Res α} {f : α → Value} (hr : respond (r.mapValue f) = .next t)
    (he : t.response = some (.err e)) : r.1 = .error e := by
  have herr := fst_of_respond_error hr he
  obtain ⟨x, u⟩ := r
  cases x <;> cases herr
  rfl

/-- Every error of the sequencer is one of three, and leaves Fault (R262). -/
theorem Sequenced.fault_of_error {r : Res Value} (h : Sequenced s r) (hr : respond r = .next t)
    (he : t.response = some (.err e)) :
    (e = .timeout ∨ e = .pgaAlarm ∨ e = .transportFailure) ∧ t.acq = .fault := by
  obtain ⟨hkind, hacq⟩ := h.errors e (fst_of_respond_error hr he)
  exact ⟨hkind, (acq_of_respond hr).trans hacq⟩

/-- A timeout of the sequencer has counted the whole budget (R212, R213). -/
theorem Sequenced.polls_of_timeout {r : Res Value} (h : Sequenced s r) (hr : respond r = .next t)
    (he : t.response = some (.err .timeout)) : t.polls = s.cfg.retryBudget := by
  have hpolls := h.timeout (fst_of_respond_error hr he)
  cases hr
  exact hpolls

/-- WAIT_SIGNAL makes no exchange: its one error is `Timeout` (R213). -/
theorem waitSignal_ne_transportFailure (s : State) : (waitSignal s).1 ≠ .error .transportFailure := by
  obtain ⟨-, -, -, hloop⟩ := sampleLoop_spec s.cfg.retryBudget (enterWait s)
  rcases andThen_waitOk_cases (sampleLoop s.cfg.retryBudget (enterWait s)) with ⟨u, -, h⟩ | ⟨e, u, hr, h⟩
  · simp [waitSignal, h]
  · rw [hr] at hloop
    rcases hloop with ⟨k, -, hok, -⟩ | ⟨htimeout, -⟩
    · cases hok
    · cases htimeout
      simp [waitSignal, h]

end

/-! ### What an error leaves (R262) -/

section
variable {o : HostOp} {s t : State} {e : Err}

/-- An error changes no shadow and no line. -/
theorem OpRun.sameRegs_of_error (h : OpRun s o t) (he : t.response = some (.err e)) : SameRegs s t := by
  rcases h.sameRegs_or with h | h | ⟨-, rfl⟩
  · exact h
  · exact h.onlyExchanges.sameRegs (h.sh_of_error he)
  · cases he

/-- How an operation ends in an error: an operand is unknown; an operation outside the acquisition keeps `ACQ`; FINISH
sees the alarm; or a sequenced part fails, by its exchange only where the table of R262 has the Fault entry. -/
inductive ErrorRun (o : HostOp) (s t : State) : Err → Prop
  | unknown (u : Unknown) (h : t.acq = s.acq) : ErrorRun o s t (.unknownIdentifier u)
  | control (e : Err) (hf : e.entersFault .control = false) (ha : o.acquires = false) (h : t.acq = s.acq) :
      ErrorRun o s t e
  | alarm (h : t.acq = .fault) : ErrorRun o s t .pgaAlarm
  | sequenced (e : Err) (r : Res Value) (hs : Sequenced s r) (hr : respond r = .next t)
      (ha : e = .transportFailure → o.acquires = true) : ErrorRun o s t e

theorem errorRun_waitSignal (hr : respond ((waitSignal s).mapValue fun _ => .unit) = .next t)
    (he : t.response = some (.err e)) : ErrorRun .waitSignal s t e := by
  refine .sequenced e _ ((waitSignal_sequenced s).mapValue _) hr ?_
  rintro rfl
  exact absurd (fst_of_respond_mapValue_error hr he) (waitSignal_ne_transportFailure s)

theorem errorRun_finish {status : Option Byte} {raw : Sample} {ref g : Nat}
    (hr : respond (finish status raw ref g s) = .next t) (he : t.response = some (.err e)) :
    ErrorRun (.finish status raw ref g) s t e := by
  rcases finish_cases status raw ref g s with ⟨-, h⟩ | ⟨-, -, h⟩ | ⟨-, -, h⟩ <;> rw [h] at hr <;> cases hr <;> cases he
  · exact .alarm rfl
  · exact .unknown _ rfl

theorem errorRun_collect {mode : Ident} {ref g : Nat} (hr : respond (collect mode ref g s) = .next t)
    (he : t.response = some (.err e)) : ErrorRun (.collectMeasurement mode ref g) s t e := by
  rcases collect_cases mode ref g s with ⟨-, h⟩ | ⟨m, -, ⟨-, h⟩ | ⟨hg, h⟩⟩ <;> rw [h] at hr
  · cases hr; cases he; exact .unknown _ rfl
  · cases hr; cases he; exact .unknown _ rfl
  · exact .sequenced e _ (collectPhases_sequenced hg m ref s) hr fun _ => rfl

theorem OpRun.errorRun (h : OpRun s o t) (he : t.response = some (.err e)) : ErrorRun o s t e := by
  cases h with
  | pure _ _ ho h =>
    obtain ⟨u, rfl⟩ := h.unknown_of_error he
    exact .unknown u h.onlyExchanges.acq
  | read _ _ _ _ _ _ ha _ h => exact .control e (h.not_entersFault_of_error he) ha h.onlyExchanges.acq
  | write _ _ _ _ _ ha _ h => exact .control e (h.not_entersFault_of_error he) ha h.onlyExchanges.acq
  | control _ _ _ _ _ _ ha _ h => exact .control e (h.not_entersFault_of_error he) ha h.onlyExchanges.acq
  | enterWait | resetPulse => cases he
  | arm _ hr => exact .sequenced e _ ((arm_sequenced s).mapValue _) hr fun _ => rfl
  | waitPolled _ hr => exact .sequenced e _ ((waitPolled_sequenced s).mapValue _) hr fun _ => rfl
  | readData _ hr => exact .sequenced e _ ((readData_sequenced s).mapValue _) hr fun _ => rfl
  | waitSignal _ hr => exact errorRun_waitSignal hr he
  | finish status raw ref g _ _ hr => exact errorRun_finish hr he
  | collect mode ref g _ hr => exact errorRun_collect hr he

end

/-- Settles O26: the registers stay (`OpRun.sameRegs_of_error`), and `ACQ` and `POLLS` are left as the way the operation
ended in the error says (`OpRun.errorRun`). -/
theorem errorsChangeOnlyWhatTheTableSays : Obligations.ErrorsChangeOnlyWhatTheTableSays := by
  intro o s t e hnext he
  have h := execOp_runs hnext
  have hregs := h.sameRegs_of_error he
  refine ⟨hregs.sh, hregs.resetN, hregs.pwdnHold, hregs.startPin, ?_⟩
  cases h.errorRun he with
  | unknown _ hacq | alarm hacq => exact hacq
  | control _ hf ha hacq =>
    cases e with
    | unknownIdentifier | verificationFailed => exact hacq
    | pgaAlarm | timeout => cases hf
    | transportFailure => simp [ha, hacq]
  | sequenced _ r hs hr ha =>
    obtain ⟨rfl | rfl | rfl, hacq⟩ := hs.fault_of_error hr he
    · exact ⟨hacq, hs.polls_of_timeout hr he⟩
    · exact hacq
    · simp [ha rfl, hacq]

/-! ### A failed exchange is the last event (R257) -/

/-- The event is no failed exchange. -/
def Event.Answered (e : Event) : Prop := ∀ tx, e ≠ .xchg tx none

@[simp] theorem answered_xchg_some (tx rx : List Byte) : (Event.xchg tx (some rx)).Answered := nofun
@[simp] theorem answered_sampleDrdy (b : Bool) : (Event.sampleDrdy b).Answered := nofun
@[simp] theorem answered_drive (l : Line) (b : Bool) : (Event.drive l b).Answered := nofun
@[simp] theorem answered_delay (d : Duration) : (Event.delay d).Answered := nofun

theorem Served.answered {c : Config} {e : Event} (h : Served c e) : e.Answered := by
  rcases h with ⟨tx, rx, rfl, -, -⟩ | ⟨b, rfl⟩ <;> simp

/-- From `s` to `t` no exchange failed and the response reports none, or the last event alone is a failed exchange and
the response reports it. -/
inductive FailsLast (s t : State) : Prop
  | answered (es : List Event) (hh : t.history = s.history ++ es) (hes : ∀ e ∈ es, e.Answered)
      (hr : t.response ≠ some (.err .transportFailure))
  | failed (es : List Event) (tx : List Byte) (hh : t.history = s.history ++ (es ++ [.xchg tx none]))
      (hes : ∀ e ∈ es, e.Answered) (hr : t.response = some (.err .transportFailure))

section
variable {s t : State}

/-- Only the last of the events can be the failed exchange. -/
theorem eq_nil_of_answered_append {es pre post : List Event} {x : Event} {tx : List Byte} (hes : ∀ e ∈ es, e.Answered)
    (h : es ++ [x] = pre ++ .xchg tx none :: post) : post = [] := by
  rcases List.eq_nil_or_concat post with rfl | ⟨post', y, rfl⟩
  · rfl
  · have hlast : es ++ [x] = (pre ++ .xchg tx none :: post') ++ [y] := by simpa using h
    have hinit : es = pre ++ .xchg tx none :: post' := (List.append_inj' hlast rfl).1
    exact absurd rfl (hes (.xchg tx none) (by simp [hinit]) tx)

theorem FailsLast.post_of_failed (h : FailsLast s t) {pre post : List Event} {tx : List Byte}
    (hev : newEvents s t = pre ++ .xchg tx none :: post) :
    post = [] ∧ t.response = some (.err .transportFailure) := by
  cases h with
  | answered es hh hes =>
    rw [newEvents_of_history hh] at hev
    exact absurd rfl (hes (.xchg tx none) (by simp [hev]) tx)
  | failed es tx' hh hes hr =>
    rw [newEvents_of_history hh] at hev
    exact ⟨eq_nil_of_answered_append hes hev, hr⟩

theorem FailsLast.last_of_transportFailure (h : FailsLast s t) (hr : t.response = some (.err .transportFailure)) :
    ∃ pre tx, newEvents s t = pre ++ [.xchg tx none] := by
  cases h with
  | answered _ _ _ hne => exact absurd hr hne
  | failed es tx hh => exact ⟨es, tx, newEvents_of_history hh⟩

theorem LookRun.response_ne (h : LookRun s t) : t.response ≠ some (.err .transportFailure) := by
  intro he
  obtain ⟨u, hu⟩ := h.unknown_of_error he
  cases hu

theorem LookRun.failsLast (h : LookRun s t) : FailsLast s t := by
  have hne := h.response_ne
  obtain ⟨r, rfl⟩ := h.eq_responding
  exact .answered [] (by simp [State.responding]) (by simp) hne

theorem ReadRun.failsLast (h : ReadRun s t) : FailsLast s t := by
  cases h with
  | unknown u => exact (LookRun.unknown u).failsLast
  | fails r h => exact .failed [] (frameRR s.cfg (s.cfg.regMap.addr r)) (by simp [State.responding, h]) (by simp) rfl
  | reads r rx h _ hu =>
    have hne := hu.response_ne
    obtain ⟨x, rfl⟩ := hu.eq_responding
    exact .answered [.xchg (frameRR s.cfg (s.cfg.regMap.addr r)) (some rx)] (by simp [State.responding, h]) (by simp) hne

theorem WriteRun.failsLast {w : Option RegId} (h : WriteRun w s t) : FailsLast s t := by
  cases h with
  | unknown u => exact (LookRun.unknown u).failsLast
  | writeFails r v _ h =>
    exact .failed [] (frameWR s.cfg (s.cfg.regMap.addr r) v) (by simp [State.responding, h]) (by simp) rfl
  | readFails r v rx _ h h' =>
    exact .failed [.xchg (frameWR s.cfg (s.cfg.regMap.addr r) v) (some rx)] (frameRR s.cfg (s.cfg.regMap.addr r))
      (by simp [State.responding, h, h']) (by simp) rfl
  | verified r v rx rx' _ h h' | mismatch r v rx rx' _ h h' =>
    exact .answered [.xchg (frameWR s.cfg (s.cfg.regMap.addr r) v) (some rx),
      .xchg (frameRR s.cfg (s.cfg.regMap.addr r)) (some rx')] (by simp [State.responding, h, h']) (by simp) nofun
  | status v rx rx' _ h h' =>
    exact .answered [.xchg (frameWR s.cfg (s.cfg.regMap.addr .status) v) (some rx),
      .xchg (frameRR s.cfg (s.cfg.regMap.addr .status)) (some rx')] (by simp [State.responding, h, h']) (by simp) nofun

theorem ControlRun.failsLast (h : ControlRun s t) : FailsLast s t := by
  cases h with
  | fails tx _ h => exact .failed [] tx (by simp [State.responding, h]) (by simp) rfl
  | stops rx h =>
    exact .answered [.xchg (frameC3 s.cfg.opStop) (some rx)] (by simp [State.responding, h]) (by simp) nofun
  | settles tx rx _ h =>
    exact .answered [.xchg tx (some rx), .delay .calSettle] (by simp [State.responding, h]) (by simp) nofun

theorem Sequenced.failsLast {r : Res Value} (h : Sequenced s r) (hr : respond r = .next t) : FailsLast s t := by
  cases hr
  obtain ⟨es, hh, ⟨hes, hne⟩ | ⟨es', tx, rfl, -, hes, herr⟩⟩ := h.events
  · exact .answered es hh (fun e he => (hes e he).answered) fun he => hne (fst_of_respond_error rfl he)
  · exact .failed es' tx hh (fun e he => (hes e he).answered) (congrArg some (toResponse_eq_err.mpr herr))

theorem failsLast_finish {status : Option Byte} {raw : Sample} {ref g : Nat}
    (hr : respond (finish status raw ref g s) = .next t) : FailsLast s t := by
  rcases finish_cases status raw ref g s with ⟨-, h⟩ | ⟨-, -, h⟩ | ⟨-, -, h⟩ <;> rw [h] at hr <;> cases hr <;>
    exact .answered [] (List.append_nil _).symm (by simp) nofun

theorem failsLast_collect {mode : Ident} {ref g : Nat} (hr : respond (collect mode ref g s) = .next t) :
    FailsLast s t := by
  rcases collect_cases mode ref g s with ⟨-, h⟩ | ⟨m, -, ⟨-, h⟩ | ⟨hg, h⟩⟩ <;> rw [h] at hr
  · cases hr; exact (LookRun.unknown _).failsLast
  · cases hr; exact (LookRun.unknown _).failsLast
  · exact (collectPhases_sequenced hg m ref s).failsLast hr

theorem failsLast_resetPulse (s : State) : FailsLast s ((resetPulse s).responding (.ok .unit)) := by
  rw [resetPulse_eq]
  exact .answered _ rfl (by simp) nofun

theorem OpRun.failsLast {o : HostOp} (h : OpRun s o t) : FailsLast s t := by
  cases h with
  | pure _ _ _ h => exact h.failsLast
  | read _ _ _ _ _ _ _ _ h => exact h.failsLast
  | write _ _ _ _ _ _ _ h => exact h.failsLast
  | control _ _ _ _ _ _ _ _ h => exact h.failsLast
  | arm _ hr => exact ((arm_sequenced s).mapValue _).failsLast hr
  | enterWait => exact .answered [] (List.append_nil _).symm (by simp) nofun
  | waitPolled _ hr => exact ((waitPolled_sequenced s).mapValue _).failsLast hr
  | waitSignal _ hr => exact ((waitSignal_sequenced s).mapValue _).failsLast hr
  | readData _ hr => exact ((readData_sequenced s).mapValue _).failsLast hr
  | finish _ _ _ _ _ _ hr => exact failsLast_finish hr
  | collect _ _ _ _ hr => exact failsLast_collect hr
  | resetPulse => exact failsLast_resetPulse s

end

/-- Settles O27: every shape of an operation fails, if it does, in its last exchange (`OpRun.failsLast`). -/
theorem failedExchangeEndsItsOperation : Obligations.FailedExchangeEndsItsOperation := by
  intro o s t e
  have h := (execOp_runs e).failsLast
  exact ⟨fun _ _ _ hev => h.post_of_failed hev, h.last_of_transportFailure⟩

/-! ### Unknown options (R252, R261) -/

section
variable {s : State}

theorem encName_of_known {w : Nat} {t : Table w} {n : Ident} {c : BitVec w} (h : t.enc n = some c) (s : State) :
    encName t n s = done c s := by simp [encName, h]

theorem encName_of_unknown {w : Nat} {t : Table w} {n : Ident} (h : t.enc n = none) (s : State) :
    encName t n s = (.error (.unknownIdentifier (.name n)), s) := by simp [encName, h]

/-- An encode that ends in an unknown option is the whole of its encoder, and of the setter built on it. -/
theorem rejectsOption_of_encode {r : RegId} {enc : State → Res Byte} {encOp setOp : HostOp} {u : Unknown}
    (hencOp : execOp encOp s = respond ((enc s).mapValue .byte)) (hsetOp : execOp setOp s = setter r enc s)
    (h : enc s = (.error (.unknownIdentifier u), s)) : rejectsOption s encOp setOp u := by
  refine ⟨?encoder, fun hq => ?setter⟩
  case encoder =>
    rw [HostOp.answers, hencOp, h]
    rfl
  case setter =>
    rw [HostOp.answers, hsetOp, setter, hq, h]
    rfl

theorem encInpmux_of_unknown_pos {pos : Ident} (neg : Option Ident) (h : Table.enc s.cfg.pinTable pos = none) :
    encInpmux pos neg s = (.error (.unknownIdentifier (.name pos)), s) := by
  simp [encInpmux, encName_of_unknown h]

theorem encInpmux_of_unknown_neg {pos : Ident} {neg : Option Ident} {p : BitVec 4}
    (h : Table.enc s.cfg.pinTable pos = some p) (h' : Table.enc s.cfg.pinTable (neg.getD defaultNeg) = none) :
    encInpmux pos neg s = (.error (.unknownIdentifier (.name (neg.getD defaultNeg))), s) := by
  simp [encInpmux, encName_of_known h, encName_of_unknown h']

theorem encPga_of_unknown_gain (b : Bool) {g : Nat} (h : g ∉ [1, 2, 4, 8, 16, 32, 64, 128]) :
    encPga b g s = (.error (.unknownIdentifier (.number g)), s) := by
  simp [encPga, gainOperand, (gainCode_none_iff g).mpr h]

theorem encRef_of_unknown_pos (e : Bool) {pos : Ident} (neg : Ident) (h : Table.enc s.cfg.refPTable pos = none) :
    encRef e pos neg s = (.error (.unknownIdentifier (.name pos)), s) := by
  simp [encRef, encName_of_unknown h]

theorem encRef_of_unknown_neg (e : Bool) {pos neg : Ident} {p : BitVec 2}
    (h : Table.enc s.cfg.refPTable pos = some p) (h' : Table.enc s.cfg.refNTable neg = none) :
    encRef e pos neg s = (.error (.unknownIdentifier (.name neg)), s) := by
  simp [encRef, encName_of_known h, encName_of_unknown h']

theorem encMode0_of_unknown_rate {rate : Ident} (filter : Ident) (h : Table.enc s.cfg.rateTable rate = none) :
    encMode0 rate filter s = (.error (.unknownIdentifier (.name rate)), s) := by
  simp [encMode0, encName_of_unknown h]

theorem encMode0_of_unknown_filter {rate filter : Ident} {d : BitVec 5}
    (h : Table.enc s.cfg.rateTable rate = some d) (h' : Table.enc s.cfg.filterTable filter = none) :
    encMode0 rate filter s = (.error (.unknownIdentifier (.name filter)), s) := by
  simp [encMode0, encName_of_known h, encName_of_unknown h']

theorem encMode1_of_unknown_chop {chop : Ident} (conv delay : Ident) (h : Table.enc s.cfg.chopTable chop = none) :
    encMode1 chop conv delay s = (.error (.unknownIdentifier (.name chop)), s) := by
  simp [encMode1, encName_of_unknown h]

theorem encMode1_of_unknown_conv {chop conv : Ident} (delay : Ident) {c : BitVec 2}
    (h : Table.enc s.cfg.chopTable chop = some c) (h' : Table.enc s.cfg.convTable conv = none) :
    encMode1 chop conv delay s = (.error (.unknownIdentifier (.name conv)), s) := by
  simp [encMode1, encName_of_known h, encName_of_unknown h']

theorem encMode1_of_unknown_delay {chop conv delay : Ident} {c : BitVec 2} {r : BitVec 1}
    (h : Table.enc s.cfg.chopTable chop = some c) (h' : Table.enc s.cfg.convTable conv = some r)
    (h'' : Table.enc s.cfg.delayTable delay = none) :
    encMode1 chop conv delay s = (.error (.unknownIdentifier (.name delay)), s) := by
  simp [encMode1, encName_of_known h, encName_of_known h', encName_of_unknown h'']

end

/-- Settles O14: each encode ends at its first unknown option, and with it the encoder and the setter
(`rejectsOption_of_encode`). -/
theorem unknownOptionEndsASetterBeforeAnyExchange : Obligations.UnknownOptionEndsASetterBeforeAnyExchange := by
  intro s
  refine ⟨fun _ neg h => ?pos, fun _ _ _ h h' => ?neg, fun _ _ h h' => ?omitted, fun b _ h => ?gain,
    fun e _ neg h => ?refPos, fun e _ _ _ h h' => ?refNeg, fun _ filter h => ?rate, fun _ _ _ h h' => ?filter,
    fun _ conv delay h => ?chop, fun _ _ delay _ h h' => ?conv, fun _ _ _ _ _ h h' h'' => ?delay⟩
  case pos => exact rejectsOption_of_encode rfl rfl (encInpmux_of_unknown_pos neg h)
  case neg => exact rejectsOption_of_encode rfl rfl (encInpmux_of_unknown_neg h h')
  case omitted => exact rejectsOption_of_encode rfl rfl (encInpmux_of_unknown_neg (neg := none) h h')
  case gain => exact rejectsOption_of_encode rfl rfl (encPga_of_unknown_gain b h)
  case refPos => exact rejectsOption_of_encode rfl rfl (encRef_of_unknown_pos e neg h)
  case refNeg => exact rejectsOption_of_encode rfl rfl (encRef_of_unknown_neg e h h')
  case rate => exact rejectsOption_of_encode rfl rfl (encMode0_of_unknown_rate filter h)
  case filter => exact rejectsOption_of_encode rfl rfl (encMode0_of_unknown_filter h h')
  case chop => exact rejectsOption_of_encode rfl rfl (encMode1_of_unknown_chop conv delay h)
  case conv => exact rejectsOption_of_encode rfl rfl (encMode1_of_unknown_conv delay h h')
  case delay => exact rejectsOption_of_encode rfl rfl (encMode1_of_unknown_delay h h' h'')

end Sys2Proof.Machine
end

section
/-!
SUPPORT. The block's reset (R280, U24; 70_reset_and_hazards.md): what the step does with each of its two requests, and
the table it leaves.
-/

namespace Sys2Proof.Machine

section
variable {s u : State} {o : HostOp} {n : Nat} {rest : List Request} (hl : s.cfg.legal = true)
include hl

/-- Between operations the step takes the request and resets the block. -/
theorem step_blockReset (hin : s.inbox = .blockReset :: rest) : step s = .next (s.taking rest).blockReset :=
  step_of_request hl hin

theorem step_resetDuring (hin : s.inbox = .blockResetDuring o n :: rest) :
    step s = serveResetDuring o n (s.taking rest) :=
  step_of_request hl hin

/-- During an operation that answers, the step cuts it after `n` events. -/
theorem step_resetDuring_of_next (hin : s.inbox = .blockResetDuring o n :: rest)
    (h : execOp o (s.taking rest) = .next u) : step s = .next ((s.taking rest).abandon u n) := by
  rw [step_resetDuring hl hin, serveResetDuring, h]

/-- With no step for the operation, the reset is all. -/
theorem step_resetDuring_of_refused {r : Refusal} (hin : s.inbox = .blockResetDuring o n :: rest)
    (h : execOp o (s.taking rest) = .refused r) : step s = .next (s.taking rest).blockReset := by
  rw [step_resetDuring hl hin, serveResetDuring, h]

end

/-- Settles O49: the reset empties the MODE3 shadow with the others, so the layout is the power-on one. -/
theorem blockResetLeavesTheTable : Obligations.BlockResetLeavesTheTable := by
  intro s rest hl hin
  exact ⟨_, step_blockReset hl hin, shadows_get_empty, rfl, rfl, rfl, rfl, rfl, rfl, rfl, rfl, rfl, rfl,
    layout_of_no_mode3 rfl⟩

/-- Settles O50: answering or refused, the step ends in the block's reset of a state that differs from the one before
only in the events that have happened and in what the environment gave for them. -/
theorem resetDuringAnOperationAbandonsIt : Obligations.ResetDuringAnOperationAbandonsIt := by
  intro s o n rest es hl hin hrun
  have hcut : ∃ v : State, step s = .next v.blockReset ∧ v.history = s.history ++ es ∧ v.cfg = s.cfg ∧
      v.inbox = rest := by
    obtain ⟨u, hu, rfl⟩ | ⟨r, hr, rfl⟩ := hrun
    case inl => exact ⟨_, step_resetDuring_of_next hl hin hu, rfl, rfl, rfl⟩
    case inr => exact ⟨_, step_resetDuring_of_refused hl hin hr, (List.append_nil _).symm, rfl, rfl⟩
  obtain ⟨v, hstep, hhist, hcfg, hinbox⟩ := hcut
  exact ⟨_, hstep, shadows_get_empty, rfl, rfl, rfl, rfl, rfl, rfl, hhist, hcfg, hinbox⟩

end Sys2Proof.Machine
end
